-- ==== Sys2Proof/Word.lean ====
section
/-! DEFINITION. The machine's data shapes: the byte, the 32-bit word, and the byte strings of fixed
length that the spec's registers and cipher work on (R9, R10, R20, R77). Every value is unsigned (R9). -/

namespace Sys2Proof

/-- A byte, bit 7 the most significant (R9). -/
abbrev Byte := BitVec 8

/-- A 32-bit register word, bit 31 the most significant (R9). -/
abbrev Word := BitVec 32

/-- A string of 4 bytes, `b0` first: the bytes of one register word (R20), one column of the AES
state (R77), one word of the key schedule (R76). -/
@[ext] structure Quad where
  b0 : Byte
  b1 : Byte
  b2 : Byte
  b3 : Byte
deriving DecidableEq, Repr

/-- A block: a string of 16 bytes `B[0] .. B[15]` (R10); byte `4k + j` is byte `j` of `qk`. -/
@[ext] structure Block where
  q0 : Quad
  q1 : Quad
  q2 : Quad
  q3 : Quad
deriving DecidableEq, Repr

/-- A string of 32 bytes, the shape of KEY_IN and KEY_LAT (R34, R39); byte `4k + j` is byte `j` of `qk`. -/
@[ext] structure KeyBytes where
  q0 : Quad
  q1 : Quad
  q2 : Quad
  q3 : Quad
  q4 : Quad
  q5 : Quad
  q6 : Quad
  q7 : Quad
deriving DecidableEq, Repr

/-- Four bytes of zero. -/
def Quad.zero : Quad := ⟨0, 0, 0, 0⟩

/-- `zeros(16)` (R10). -/
def Block.zero : Block := ⟨.zero, .zero, .zero, .zero⟩

/-- `zeros(32)` (R10). -/
def KeyBytes.zero : KeyBytes := ⟨.zero, .zero, .zero, .zero, .zero, .zero, .zero, .zero⟩

end Sys2Proof
end

