-- ==== Sys2Proof/Syntax.lean ====
section
/-! DEFINITION. The commands of the core, one constructor per row of spec/opcode_table.json. No command has an
immediate field (R64), so no constructor has an argument. -/

namespace Sys2Proof

/-- The ten commands (R68). -/
inductive Instr where
  /-- NOP, opcode 0x00 (R117). -/
  | nop
  /-- KEY_INIT, opcode 0x01 (R93). -/
  | keyInit
  /-- KEY_CLEAR, opcode 0x02 (R94). -/
  | keyClear
  /-- ENC_START, opcode 0x03 (R100). -/
  | encStart
  /-- DEC_START, opcode 0x04 (R110). -/
  | decStart
  /-- ENC_BLOCK, opcode 0x05 (R101). -/
  | encBlock
  /-- DEC_BLOCK, opcode 0x06 (R111). -/
  | decBlock
  /-- ABORT, opcode 0x07 (R118). -/
  | abort
  /-- AES_ENC, opcode 0x08, present when RAW_BLOCK_OPS = 1 (R91). -/
  | aesEnc
  /-- AES_DEC, opcode 0x09, present when RAW_BLOCK_OPS = 1 (R92). -/
  | aesDec
deriving DecidableEq, Repr

end Sys2Proof
end

