-- ==== Sys2Proof/WellFormed.lean ====
section
/-! DEFINITION. Which commands exist in a build of the core: the one check on a command (R8, R68). -/

namespace Sys2Proof

/-- `i` exists when parameter RAW_BLOCK_OPS is `raw`: AES_ENC and AES_DEC exist only when it is 1 (R8, R68). -/
def Instr.wellFormed (raw : Bool) : Instr → Bool
  | .nop => true
  | .keyInit => true
  | .keyClear => true
  | .encStart => true
  | .decStart => true
  | .encBlock => true
  | .decBlock => true
  | .abort => true
  | .aesEnc => raw
  | .aesDec => raw

end Sys2Proof
end

