-- ==== Sys2Proof/Decode.lean ====
section
/-! DEFINITION. The decoder of command words (R63, R68, R69), total on every 32-bit word and rejecting by name;
after it the encoder, from the same format. A command is one 32-bit word (R63): there is no byte stream. -/

namespace Sys2Proof

/-- Why a word is no command (R69). Each of these completes with IllegalCommand. -/
inductive Reject where
  /-- A bit of RSVD, [31:8], is set (R63, R68). -/
  | reservedBitsSet
  /-- The opcode is 0x0A to 0xFF (R68). -/
  | reservedOpcode
  /-- The opcode is 0x08 or 0x09 and RAW_BLOCK_OPS = 0 (R68). -/
  | rawBlockOpsAbsent
deriving DecidableEq, Repr

/-- The OPCODE field, [7:0] (R63). -/
def opcodeField (w : Word) : BitVec 8 := w.extractLsb' 0 8

/-- The RSVD field, [31:8] (R63). -/
def reservedField (w : Word) : BitVec 24 := w.extractLsb' 8 24

/-- The opcode map (R68). -/
def instrOfOpcode (op : BitVec 8) : Option Instr :=
  match op.toNat with
  | 0x00 => some .nop
  | 0x01 => some .keyInit
  | 0x02 => some .keyClear
  | 0x03 => some .encStart
  | 0x04 => some .decStart
  | 0x05 => some .encBlock
  | 0x06 => some .decBlock
  | 0x07 => some .abort
  | 0x08 => some .aesEnc
  | 0x09 => some .aesDec
  | _ => none

/-- Decode of a command word when RAW_BLOCK_OPS is `raw` (R68). -/
def decode (raw : Bool) (w : Word) : Except Reject Instr :=
  if reservedField w ≠ 0 then .error .reservedBitsSet
  else match instrOfOpcode (opcodeField w) with
    | none => .error .reservedOpcode
    | some i => if i.wellFormed raw then .ok i else .error .rawBlockOpsAbsent

/-- The opcode of a command (R64). -/
def Instr.opcode : Instr → BitVec 8
  | .nop => 0x00
  | .keyInit => 0x01
  | .keyClear => 0x02
  | .encStart => 0x03
  | .decStart => 0x04
  | .encBlock => 0x05
  | .decBlock => 0x06
  | .abort => 0x07
  | .aesEnc => 0x08
  | .aesDec => 0x09

/-- The command word of a command: its opcode with RSVD = 0 (R63, R70). -/
def encode (i : Instr) : Word := (0 : BitVec 24) ++ i.opcode

/-- The command the decoder reads from a table row's word: bit 0 of `w` is bit 0 of the one command word (R63),
and the bits from `nbits` up are 0. A value that does not fit in 32 bits is no command word. The table lists AES_ENC and
AES_DEC, so RAW_BLOCK_OPS is at its default 1 here (R8, log 2). -/
def decodeTableWord (nbits w : Nat) : Option Instr :=
  let v := w % 2 ^ nbits
  if v < 2 ^ 32 then
    match decode true (BitVec.ofNat 32 v) with
    | .ok i => some i
    | .error _ => none
  else none

end Sys2Proof
end

