-- ==== Sys2Proof/Config.lean ====
section
/-! DEFINITION. What the platform or the build fixes (R8). Of the open parameters, BASE is here with no
value; RAW_BLOCK_OPS has a default here and is carried by the state (log 2); LATENCY and IRQ_TARGET are read by
no rule and are not in the model (log 11). -/

namespace Sys2Proof

/-- The index of the 256-byte page the register window occupies. OPEN (R8, D41): it has no body, so a
claim holds wherever the platform puts the window (log 1). -/
opaque Config.basePage : Nat

/-- BASE: the bus address of register offset 0x00, "any 256-byte-aligned address of the platform bus" (R8). -/
def Config.base : Nat := 256 * Config.basePage

/-- The default of parameter RAW_BLOCK_OPS: 1, the raw block commands exist (R8, D44). -/
def Config.defaultRawBlockOps : Bool := true

end Sys2Proof
end

