-- ==== Sys2Proof/Machine/State.lean ====
section
/-! DEFINITION. The state of the core as plain data (R15 to R42), the moves of the agents around it, the reasons a
step can stop, and the state after reset (R42). -/

namespace Sys2Proof.Machine

/-- STATUS.SESSION (R28). The value 3 is never held, so it has no constructor (log 12). -/
inductive Session where
  | idle
  | enc
  | dec
deriving DecidableEq, Repr

/-- STATUS.KLEN: the length of the key in KEY_LAT (R27, R30). -/
inductive KLen where
  | none
  | bits128
  | bits192
  | bits256
deriving DecidableEq, Repr

/-- The outcome codes of a completion, 0 to 9 in this order (R121). The reserved codes 10 to 15 are never produced and
have no constructor (log 12). -/
inductive ErrCode where
  | ok
  | unsupportedKeyLength
  | entropySourceUnavailable
  | invalidKeyMaterial
  | invalidIVLength
  | invalidCiphertextLength
  | cipherInitializationFailure
  | paddingValidationFailure
  | illegalCommand
  | sequenceError
deriving DecidableEq, Repr

/-- A register of the window, with its index where the spec numbers it (R18). -/
inductive Reg where
  | id
  | version
  | config
  | cmd
  | status
  | msgLen
  | remain
  | key (k : Fin 8)
  | iv (k : Fin 4)
  | din (k : Fin 4)
  | dout (k : Fin 4)
  | chain (k : Fin 4)
deriving DecidableEq, Repr

/-- A move of one of the agents of R15, in the one total order of R56. A host's access names a bus address and a width in
bytes; it names no host, for the core knows none (R140, log 8). -/
inductive Event where
  /-- A host's bus read of `size` bytes at `addr`: `MemRead(addr, size)` (R11). -/
  | read (addr size : Nat)
  /-- A host's bus write at `addr`: `MemWrite(addr, size, v)` (R11). Only a write of 4 bytes reaches a register, so `v` is a
  word; what other widths carry is lost with the refused access (R48, log 19). -/
  | write (addr size : Nat) (v : Word)
  /-- The engine's turn: it completes the pending command if there is one (R15 (b), R67). -/
  | engine
  /-- Assertion of the reset input (R143). -/
  | reset
deriving DecidableEq, Repr

/-- What a host's access is answered with (R51, R52, R53). -/
inductive BusResponse where
  /-- No host access has been made yet. -/
  | none
  /-- The data of a read (R52). -/
  | data (v : Word)
  /-- A write answered without an error, whether or not it changed a register (R53). -/
  | written
  /-- The platform's error response (R51). -/
  | busError
deriving DecidableEq, Repr

/-- The state. Beside the core's registers (R18 to R40) it carries the parameter RAW_BLOCK_OPS, which no step writes
(log 2), and two fields of the model's own: the moves still to come (log 3) and the last bus response (log 5). -/
@[ext]
structure State where
  /-- CONFIG.KEY_BITS (R25). -/
  keyBits : BitVec 16
  /-- CONFIG.IRQ_EN (R25). -/
  irqEn : Bool
  /-- MSG_LEN (R31). -/
  msgLen : Word
  /-- REMAIN (R32). -/
  remain : Word
  /-- STATUS.BUSY (R27). -/
  busy : Bool
  /-- STATUS.DONE (R27). -/
  done : Bool
  /-- STATUS.KEY_VALID (R27, R30). -/
  keyValid : Bool
  /-- STATUS.SESSION (R28). -/
  session : Session
  /-- STATUS.LAST (R29). -/
  last : Bool
  /-- STATUS.ERR_STICKY (R27). -/
  errSticky : Bool
  /-- STATUS.WR_IGNORED (R27). -/
  wrIgnored : Bool
  /-- STATUS.OUT_LEN (R27, R37). -/
  outLen : BitVec 5
  /-- STATUS.ERR_CODE (R27, R121). -/
  errCode : ErrCode
  /-- STATUS.KLEN (R27, R30). -/
  klen : KLen
  /-- KEY_IN, the registers KEY0..KEY7 (R34). -/
  keyIn : KeyBytes
  /-- IV, the registers IV0..IV3 (R35). -/
  iv : Block
  /-- DIN, the registers DIN0..DIN3 (R36). -/
  din : Block
  /-- DOUT, the registers DOUT0..DOUT3 (R37). -/
  dout : Block
  /-- CHAIN, the registers CHAIN0..CHAIN3 (R38). -/
  chain : Block
  /-- KEY_LAT, the key latch, readable by no host (R39). -/
  keyLat : KeyBytes
  /-- PEND_CMD, the word issued and not yet completed (R40). -/
  pendCmd : Word
  /-- The parameter RAW_BLOCK_OPS (R8): set at build time, written by no step (log 2). -/
  rawBlockOps : Bool
  /-- The agents' moves still to come, the next one first: the total order of R56 as plain data (log 3). -/
  events : List Event
  /-- The response the last host access got (log 5). The core never reads it. -/
  resp : BusResponse
deriving DecidableEq, Repr

/-- Why the machine stops. None of these is a command error: those are codes in STATUS (R120). -/
inductive Fault where
  /-- Raised by a host access whose address is outside BASE .. BASE + 0xFF: no access to this core (R44). SAFE: the model
  stops where the platform would take the access elsewhere (log 6). -/
  | outsideWindow
  /-- Raised by ENC_BLOCK, DEC_BLOCK, AES_ENC and AES_DEC when they are past their check and KLEN = 0, so that Nk is
  undefined (R30). No reachable state meets it (R41 (a), (f)). SAFE: the model stops (log 7). -/
  | keyLengthUndefined
  /-- Raised by DEC_BLOCK in a decryption session with REMAIN < 16, where the spec's subtraction would go below 0 (R11).
  No reachable state meets it (R41 (b)). SAFE: the model stops (log 9). -/
  | remainUnderflow
deriving DecidableEq, Repr

/-- Why an instruction has no meaning. -/
inductive Refusal where
  /-- Raised by `exec` for a command that has no meaning yet; no command of this model is left so. SAFE. -/
  | notModelled (mnemonic : String)
deriving DecidableEq, Repr

/-- The outcome of one step of this machine. -/
abbrev Result := Host.Outcome State Fault Refusal

/-- The machine right after reset (R42): every field at the value the rule gives, KEY_BITS = 128 and all else zero.
RAW_BLOCK_OPS is at its default (R8). The model's own fields hold no move and no response (logs 3, 5). -/
def State.reset : State where
  keyBits := 128
  irqEn := false
  msgLen := 0
  remain := 0
  busy := false
  done := false
  keyValid := false
  session := .idle
  last := false
  errSticky := false
  wrIgnored := false
  outLen := 0
  errCode := .ok
  klen := .none
  keyIn := .zero
  iv := .zero
  din := .zero
  dout := .zero
  chain := .zero
  keyLat := .zero
  pendCmd := 0
  rawBlockOps := Config.defaultRawBlockOps
  events := []
  resp := .none

end Sys2Proof.Machine
end

