-- ==== Sys2Proof/Machine/Flags.lean ====
section
/-! DEFINITION. The fields of STATUS and CONFIG as numbers, the register words they make, the W1C write of STATUS, and the
IRQ output (R25, R27, R30, R53, R121, R134). -/

namespace Sys2Proof.Machine

/-- SESSION as the two bits [4:3] of STATUS (R27). -/
def Session.bits : Session → BitVec 2
  | .idle => 0
  | .enc => 1
  | .dec => 2

/-- KLEN as the two bits [21:20] of STATUS (R27). -/
def KLen.bits : KLen → BitVec 2
  | .none => 0
  | .bits128 => 1
  | .bits192 => 2
  | .bits256 => 3

/-- The code of an outcome, the four bits [19:16] of STATUS (R121). -/
def ErrCode.code : ErrCode → BitVec 4
  | .ok => 0
  | .unsupportedKeyLength => 1
  | .entropySourceUnavailable => 2
  | .invalidKeyMaterial => 3
  | .invalidIVLength => 4
  | .invalidCiphertextLength => 5
  | .cipherInitializationFailure => 6
  | .paddingValidationFailure => 7
  | .illegalCommand => 8
  | .sequenceError => 9

/-- STATUS as a host reads it, its fields from bit 31 down to bit 0, reserved bits 0 (R27, R52). -/
def statusWord (s : State) : Word :=
  (0 : BitVec 10) ++ s.klen.bits ++ s.errCode.code ++ (0 : BitVec 3) ++ s.outLen ++
    BitVec.ofBool s.wrIgnored ++ BitVec.ofBool s.errSticky ++ BitVec.ofBool s.last ++ s.session.bits ++
    BitVec.ofBool s.keyValid ++ BitVec.ofBool s.done ++ BitVec.ofBool s.busy

/-- CONFIG as a host reads it: IRQ_EN at bit 16, KEY_BITS below, reserved bits 0 (R25, R52). -/
def configWord (s : State) : Word := (0 : BitVec 15) ++ BitVec.ofBool s.irqEn ++ s.keyBits

/-- A write of CONFIG: KEY_BITS from [15:0], IRQ_EN from [16], the rest ignored (R25, R53). -/
def writeConfig (v : Word) (s : State) : State :=
  { s with keyBits := v.extractLsb' 0 16, irqEn := v.getLsbD 16 }

/-- A write of STATUS: bits 1, 6 and 7 clear DONE, ERR_STICKY and WR_IGNORED where they are 1; other bits are
ignored (R27, R53). -/
def writeStatus (v : Word) (s : State) : State :=
  { s with
    done := s.done && !v.getLsbD 1
    errSticky := s.errSticky && !v.getLsbD 6
    wrIgnored := s.wrIgnored && !v.getLsbD 7 }

/-- The IRQ output: asserted exactly when DONE = 1 and IRQ_EN = 1 (R134). -/
def State.irq (s : State) : Bool := s.done && s.irqEn

end Sys2Proof.Machine
end

