-- ==== Sys2Proof/Machine/Bytes.lean ====
section
/-! DEFINITION. Byte strings: indexing, building, exclusive or, and the little-endian lanes between a string of four
bytes and a register word (R10, R20, R45). -/

namespace Sys2Proof

/-- Byte `j` of a string of four. -/
def Quad.get (q : Quad) : Nat → Byte
  | 0 => q.b0
  | 1 => q.b1
  | 2 => q.b2
  | _ => q.b3

/-- The four bytes in order. -/
def Quad.toList (q : Quad) : List Byte := [q.b0, q.b1, q.b2, q.b3]

/-- `f` applied to each byte. -/
def Quad.map (f : Byte → Byte) (q : Quad) : Quad := ⟨f q.b0, f q.b1, f q.b2, f q.b3⟩

/-- Bytewise exclusive or (R10). -/
def Quad.xor (a b : Quad) : Quad := ⟨a.b0 ^^^ b.b0, a.b1 ^^^ b.b1, a.b2 ^^^ b.b2, a.b3 ^^^ b.b3⟩

/-- The register word whose byte lanes are these bytes: lane `j` is bits `[8j+7 : 8j]` (R20, R45). -/
def Quad.toWord (q : Quad) : Word := q.b3 ++ q.b2 ++ q.b1 ++ q.b0

/-- The byte lanes of a register word, lane 0 first (R20, R45). -/
def quadOfWord (w : Word) : Quad :=
  ⟨w.extractLsb' 0 8, w.extractLsb' 8 8, w.extractLsb' 16 8, w.extractLsb' 24 8⟩

/-- A byte string cut into strings of four; a shorter end is dropped. -/
def quadsOf : List Byte → List Quad
  | a :: b :: c :: d :: rest => ⟨a, b, c, d⟩ :: quadsOf rest
  | _ => []

/-- Word `k` of a block: bytes `4k` to `4k + 3` (R20). -/
def Block.quad (b : Block) : Nat → Quad
  | 0 => b.q0
  | 1 => b.q1
  | 2 => b.q2
  | _ => b.q3

/-- The block with word `k` replaced. -/
def Block.setQuad (b : Block) (k : Nat) (q : Quad) : Block :=
  match k with
  | 0 => { b with q0 := q }
  | 1 => { b with q1 := q }
  | 2 => { b with q2 := q }
  | _ => { b with q3 := q }

/-- `B[i]`, for `i` from 0 to 15 (R10). -/
def Block.get (b : Block) (i : Nat) : Byte := (b.quad (i / 4)).get (i % 4)

/-- The block whose byte `i` is `f i`. -/
def Block.ofFn (f : Nat → Byte) : Block :=
  ⟨⟨f 0, f 1, f 2, f 3⟩, ⟨f 4, f 5, f 6, f 7⟩, ⟨f 8, f 9, f 10, f 11⟩, ⟨f 12, f 13, f 14, f 15⟩⟩

/-- The sixteen bytes in order. -/
def Block.toList (b : Block) : List Byte := b.q0.toList ++ b.q1.toList ++ b.q2.toList ++ b.q3.toList

/-- `f` applied to each byte. -/
def Block.map (f : Byte → Byte) (b : Block) : Block := ⟨b.q0.map f, b.q1.map f, b.q2.map f, b.q3.map f⟩

/-- Bytewise exclusive or (R10). -/
def Block.xor (a b : Block) : Block := ⟨a.q0.xor b.q0, a.q1.xor b.q1, a.q2.xor b.q2, a.q3.xor b.q3⟩

/-- Word `k` of a string of 32 bytes: bytes `4k` to `4k + 3` (R20). -/
def KeyBytes.quad (b : KeyBytes) : Nat → Quad
  | 0 => b.q0
  | 1 => b.q1
  | 2 => b.q2
  | 3 => b.q3
  | 4 => b.q4
  | 5 => b.q5
  | 6 => b.q6
  | _ => b.q7

/-- The string with word `k` replaced. -/
def KeyBytes.setQuad (b : KeyBytes) (k : Nat) (q : Quad) : KeyBytes :=
  match k with
  | 0 => { b with q0 := q }
  | 1 => { b with q1 := q }
  | 2 => { b with q2 := q }
  | 3 => { b with q3 := q }
  | 4 => { b with q4 := q }
  | 5 => { b with q5 := q }
  | 6 => { b with q6 := q }
  | _ => { b with q7 := q }

/-- Byte `i` of a string of 32, for `i` from 0 to 31. -/
def KeyBytes.get (b : KeyBytes) (i : Nat) : Byte := (b.quad (i / 4)).get (i % 4)

/-- The thirty-two bytes in order. -/
def KeyBytes.toList (b : KeyBytes) : List Byte :=
  b.q0.toList ++ b.q1.toList ++ b.q2.toList ++ b.q3.toList ++
    b.q4.toList ++ b.q5.toList ++ b.q6.toList ++ b.q7.toList

/-- The first `n` words kept and zeros after them: `B[0 .. 4n-1] ++ zeros(32 - 4n)` (R93). -/
def KeyBytes.keepQuads (b : KeyBytes) (n : Nat) : KeyBytes :=
  let word (k : Nat) : Quad := if k < n then b.quad k else .zero
  ⟨word 0, word 1, word 2, word 3, word 4, word 5, word 6, word 7⟩

end Sys2Proof
end

