-- ==== Sys2Proof/Machine/Aes.lean ====
section
/-! DEFINITION. The AES block functions (R73 to R87). The spec supplies them from general knowledge (FIPS-197) and says so
(log 18). A key K is a byte string of 16, 24 or 32 bytes; Nk is its length in words (R76, R86). -/

namespace Sys2Proof.Machine

/-- Multiplication by x (R74). -/
def xtime (b : Byte) : Byte := (b <<< 1) ^^^ (if b.getLsbD 7 then 0x1B else 0x00)

/-- The loop of `gmul`: `n` bits of `b` are left, from bit `i` on; `a` has been doubled `i` times (R74). -/
def gmulFrom (b : Byte) : Nat → Nat → Byte → Byte → Byte
  | 0, _, _, r => r
  | n + 1, i, a, r => gmulFrom b n (i + 1) (xtime a) (if b.getLsbD i then r ^^^ a else r)

/-- The product `a • b` in GF(2^8) (R74). -/
def gmul (a b : Byte) : Byte := gmulFrom b 8 0 a 0x00

/-- Row `b[7:4]` of the SBOX table as one 128-bit number: its hex digits read left to right are the row's
entries for columns 0 to F (R78). -/
def sboxRow : Nat → Nat
  | 0x0 => 0x637c777bf26b6fc53001672bfed7ab76
  | 0x1 => 0xca82c97dfa5947f0add4a2af9ca472c0
  | 0x2 => 0xb7fd9326363ff7cc34a5e5f171d83115
  | 0x3 => 0x04c723c31896059a071280e2eb27b275
  | 0x4 => 0x09832c1a1b6e5aa0523bd6b329e32f84
  | 0x5 => 0x53d100ed20fcb15b6acbbe394a4c58cf
  | 0x6 => 0xd0efaafb434d338545f9027f503c9fa8
  | 0x7 => 0x51a3408f929d38f5bcb6da2110fff3d2
  | 0x8 => 0xcd0c13ec5f974417c4a77e3d645d1973
  | 0x9 => 0x60814fdc222a908846eeb814de5e0bdb
  | 0xA => 0xe0323a0a4906245cc2d3ac629195e479
  | 0xB => 0xe7c8376d8dd54ea96c56f4ea657aae08
  | 0xC => 0xba78252e1ca6b4c6e8dd741f4bbd8b8a
  | 0xD => 0x703eb5664803f60e613557b986c11d9e
  | 0xE => 0xe1f8981169d98e949b1e87e9ce5528df
  | _ => 0x8ca1890dbfe6426841992d0fb054bb16

/-- Row `b[7:4]` of the INV_SBOX table, written as `sboxRow` writes its own (R79). -/
def invSboxRow : Nat → Nat
  | 0x0 => 0x52096ad53036a538bf40a39e81f3d7fb
  | 0x1 => 0x7ce339829b2fff87348e4344c4dee9cb
  | 0x2 => 0x547b9432a6c2233dee4c950b42fac34e
  | 0x3 => 0x082ea16628d924b2765ba2496d8bd125
  | 0x4 => 0x72f8f66486689816d4a45ccc5d65b692
  | 0x5 => 0x6c704850fdedb9da5e154657a78d9d84
  | 0x6 => 0x90d8ab008cbcd30af7e45805b8b34506
  | 0x7 => 0xd02c1e8fca3f0f02c1afbd0301138a6b
  | 0x8 => 0x3a9111414f67dcea97f2cfcef0b4e673
  | 0x9 => 0x96ac7422e7ad3585e2f937e81c75df6e
  | 0xA => 0x47f11a711d29c5896fb7620eaa18be1b
  | 0xB => 0xfc563e4bc6d279209adbc0fe78cd5af4
  | 0xC => 0x1fdda8338807c731b11210592780ec5f
  | 0xD => 0x60517fa919b54a0d2de57a9f93c99cef
  | 0xE => 0xa0e03b4dae2af5b0c8ebbb3c83539961
  | _ => 0x172b047eba77d626e169146355210c7d

/-- Entry `col` of a row of 16 bytes written as one 128-bit number, column 0 the most significant byte. -/
def rowEntry (row col : Nat) : Byte := BitVec.ofNat 8 (row >>> (8 * (15 - col)))

/-- SBOX(b): row `b[7:4]`, column `b[3:0]` (R78). -/
def sbox (b : Byte) : Byte := rowEntry (sboxRow (b.toNat / 16)) (b.toNat % 16)

/-- INV_SBOX(b): row `b[7:4]`, column `b[3:0]` (R79). -/
def invSbox (b : Byte) : Byte := rowEntry (invSboxRow (b.toNat / 16)) (b.toNat % 16)

/-- RotWord (R76). -/
def rotWord (q : Quad) : Quad := ⟨q.b1, q.b2, q.b3, q.b0⟩

/-- SubWord (R76). -/
def subWord (q : Quad) : Quad := q.map sbox

/-- `Rcon[1..10]` (R76). No key uses another index; there it is 0 (log 16). -/
def rcon : Nat → Byte
  | 1 => 0x01
  | 2 => 0x02
  | 3 => 0x04
  | 4 => 0x08
  | 5 => 0x10
  | 6 => 0x20
  | 7 => 0x40
  | 8 => 0x80
  | 9 => 0x1B
  | 10 => 0x36
  | _ => 0x00

/-- Nr for a key of `nk` words: 10, 12, 14 for 4, 6, 8 (R75). -/
def rounds (nk : Nat) : Nat := nk + 6

/-- The key-schedule word `w[i]`, from the words before it with the latest first: `w[i-1]` is the head of `ws`, and
`w[i-Nk]` stands `Nk - 1` places after it (R76). -/
def nextKeyWord (nk i : Nat) (ws : List Quad) : Quad :=
  let t := ws.headD .zero
  let t :=
    if i % nk = 0 then (subWord (rotWord t)).xor ⟨rcon (i / nk), 0x00, 0x00, 0x00⟩
    else if nk = 8 ∧ i % nk = 4 then subWord t
    else t
  (ws.getD (nk - 1) .zero).xor t

/-- The key expansion's loop: `n` more words from `w[i]` on; `ws` holds the words so far, the latest first (R76). -/
def expandKeyFrom (nk : Nat) : Nat → Nat → List Quad → List Quad
  | 0, _, ws => ws.reverse
  | n + 1, i, ws => expandKeyFrom nk n (i + 1) (nextKeyWord nk i ws :: ws)

/-- The round-key words `w[0 .. 4*(Nr+1)-1]` of key K (R76). -/
def keyWords (k : List Byte) : List Quad :=
  let first := quadsOf k
  let nk := first.length
  expandKeyFrom nk (4 * (rounds nk + 1) - nk) nk first.reverse

/-- `RoundKey(r) = w[4r] ++ w[4r+1] ++ w[4r+2] ++ w[4r+3]` (R76). -/
def roundKey (ws : List Quad) (r : Nat) : Block :=
  ⟨ws.getD (4 * r) .zero, ws.getD (4 * r + 1) .zero, ws.getD (4 * r + 2) .zero, ws.getD (4 * r + 3) .zero⟩

/-- SubBytes (R78). -/
def subBytes (s : Block) : Block := s.map sbox

/-- InvSubBytes (R79). -/
def invSubBytes (s : Block) : Block := s.map invSbox

/-- ShiftRows: `s'[r][c] = s[r][(c + r) mod 4]`, byte `i` being row `i mod 4`, column `i div 4` (R77, R81). -/
def shiftRows (s : Block) : Block := Block.ofFn fun i => s.get (i % 4 + 4 * ((i / 4 + i % 4) % 4))

/-- InvShiftRows: `s'[r][c] = s[r][(c - r) mod 4]` (R82). -/
def invShiftRows (s : Block) : Block := Block.ofFn fun i => s.get (i % 4 + 4 * ((i / 4 + 4 - i % 4) % 4))

/-- MixColumns of one column (R83). -/
def mixColumn (a : Quad) : Quad :=
  ⟨gmul 0x02 a.b0 ^^^ gmul 0x03 a.b1 ^^^ a.b2 ^^^ a.b3,
   a.b0 ^^^ gmul 0x02 a.b1 ^^^ gmul 0x03 a.b2 ^^^ a.b3,
   a.b0 ^^^ a.b1 ^^^ gmul 0x02 a.b2 ^^^ gmul 0x03 a.b3,
   gmul 0x03 a.b0 ^^^ a.b1 ^^^ a.b2 ^^^ gmul 0x02 a.b3⟩

/-- InvMixColumns of one column (R84). -/
def invMixColumn (a : Quad) : Quad :=
  ⟨gmul 0x0E a.b0 ^^^ gmul 0x0B a.b1 ^^^ gmul 0x0D a.b2 ^^^ gmul 0x09 a.b3,
   gmul 0x09 a.b0 ^^^ gmul 0x0E a.b1 ^^^ gmul 0x0B a.b2 ^^^ gmul 0x0D a.b3,
   gmul 0x0D a.b0 ^^^ gmul 0x09 a.b1 ^^^ gmul 0x0E a.b2 ^^^ gmul 0x0B a.b3,
   gmul 0x0B a.b0 ^^^ gmul 0x0D a.b1 ^^^ gmul 0x09 a.b2 ^^^ gmul 0x0E a.b3⟩

/-- MixColumns: each column by itself; column `c` is the four bytes from byte `4c` (R77, R83). -/
def mixColumns (s : Block) : Block := ⟨mixColumn s.q0, mixColumn s.q1, mixColumn s.q2, mixColumn s.q3⟩

/-- InvMixColumns (R84). -/
def invMixColumns (s : Block) : Block :=
  ⟨invMixColumn s.q0, invMixColumn s.q1, invMixColumn s.q2, invMixColumn s.q3⟩

/-- AddRoundKey(S, r) (R85). -/
def addRoundKey (ws : List Quad) (r : Nat) (s : Block) : Block := s.xor (roundKey ws r)

/-- The rounds 1 to `r` of AES_Encrypt, each a full round (R86). -/
def encryptRounds (ws : List Quad) : Nat → Block → Block
  | 0, s => s
  | r + 1, s => addRoundKey ws (r + 1) (mixColumns (shiftRows (subBytes (encryptRounds ws r s))))

/-- The rounds `r` down to 1 of AES_Decrypt (R87). -/
def decryptRounds (ws : List Quad) : Nat → Block → Block
  | 0, s => s
  | r + 1, s => decryptRounds ws r (invMixColumns (addRoundKey ws (r + 1) (invSubBytes (invShiftRows s))))

/-- AES_Encrypt(K, B) (R86). -/
def aesEncrypt (k : List Byte) (b : Block) : Block :=
  let ws := keyWords k
  let nr := rounds (k.length / 4)
  addRoundKey ws nr (shiftRows (subBytes (encryptRounds ws (nr - 1) (addRoundKey ws 0 b))))

/-- AES_Decrypt(K, B) (R87). -/
def aesDecrypt (k : List Byte) (b : Block) : Block :=
  let ws := keyWords k
  let nr := rounds (k.length / 4)
  addRoundKey ws 0 (invSubBytes (invShiftRows (decryptRounds ws (nr - 1) (addRoundKey ws nr b))))

end Sys2Proof.Machine
end

