-- ==== Sys2Proof/Machine/Operands.lean ====
section
/-! DEFINITION. The operands of the commands that are more than a register: the latched key, the padded final block, and
the padding validator (R30, R64, R93, R97, R101, R106, R107, R109). -/

namespace Sys2Proof.Machine

/-- Nk, the number of 32-bit words of the latched key (R30, R75); none for KLEN = 0. -/
def KLen.words : KLen → Option Nat
  | .none => Option.none
  | .bits128 => some 4
  | .bits192 => some 6
  | .bits256 => some 8

/-- KLEN for a requested length in bits; `none` for a length that is not supported (R93). -/
def KLen.ofKeyBits (b : BitVec 16) : KLen :=
  if b = 128 then .bits128
  else if b = 192 then .bits192
  else if b = 256 then .bits256
  else .none

/-- The key operand of a cipher command: `K = KEY_LAT[0 .. 4*Nk-1]` with Nk from KLEN (R64); none for KLEN = 0. -/
def cipherKey (s : State) : Option (List Byte) :=
  match s.klen.words with
  | none => none
  | some nk => some (s.keyLat.toList.take (4 * nk))

/-- The padding injector: with `n` plaintext bytes left and `p = 16 - n`, the block `DIN[0 .. n-1] ++ rep(p, p)` (R101). -/
def padBlock (n : Nat) (d : Block) : Block :=
  Block.ofFn fun i => if i < n then d.get i else BitVec.ofNat 8 (16 - n)

/-- The pad value `p = X[15]` of a decrypted final block (R106). -/
def padValue (x : Block) : Nat := (x.get 15).toNat

/-- The padding validator: `1 <= p <= 16`, and `X[i] = p or i < 16 - p` at all sixteen positions (R106, R109). -/
def validPadding (x : Block) : Bool :=
  let p := padValue x
  decide (1 ≤ p) && decide (p ≤ 16) && (List.range 16).all fun i => x.get i == x.get 15 || decide (i < 16 - p)

/-- `Unpad(X) ++ zeros(p)`: the bytes before the padding, and zeros in its place (R107, R111). -/
def stripPadding (x : Block) : Block :=
  Block.ofFn fun i => if i < 16 - padValue x then x.get i else 0x00

end Sys2Proof.Machine
end

