-- ==== Sys2Proof/Machine/Ops.lean ====
section
/-! DEFINITION. The shared operations: completing a command and raising an error (R67, R120), the state changes several
commands share, issuing a command (R66), and the host's reads and writes of the register window (R18, R51 to R53). The
core has no traps: raising an error IS the completion with its code, and there is no return from it (R120, R135). -/

namespace Sys2Proof.Machine

/-- The completion fields written for outcome `e` (R67): ERR_CODE, ERR_STICKY if `e` is an error, BUSY and DONE. -/
def completion (e : ErrCode) (s : State) : State :=
  { s with
    errCode := e
    errSticky := s.errSticky || decide (e ≠ .ok)
    busy := false
    done := true }

/-- A command completes with success from the state `s` that its writes left (R67). -/
def succeed (s : State) : Result := .next (completion .ok s)

/-- `raise e`: the command ends at once with error `e`; the writes made before it, those in `s`, stand (R11, R67, R120). -/
def raise (e : ErrCode) (s : State) : Result := .next (completion e s)

/-- Runs `f` on the key operand of a cipher command. KLEN = 0 gives no key length; a command gets here with it in no
reachable state (R30, R41 (f), log 7). -/
def withCipherKey (s : State) (f : List Byte → Result) : Result :=
  match cipherKey s with
  | none => .fault .keyLengthUndefined
  | some k => f k

/-- Any open session ends: SESSION ← IDLE, REMAIN ← 0 (R28, R93, R94, R118). -/
def endSession (s : State) : State := { s with session := .idle, remain := 0 }

/-- A session of kind `k` opens from IV and MSG_LEN (R100, R110). -/
def openSession (k : Session) (s : State) : State :=
  { s with
    chain := s.iv
    remain := s.msgLen
    session := k
    last := false
    dout := .zero
    outLen := 0 }

/-- The result of a raw block command: DOUT ← `b`, OUT_LEN ← 16, LAST ← 0 (R91, R92). -/
def rawOutput (b : Block) (s : State) : State := { s with dout := b, outLen := 16, last := false }

/-- A guarded write that is dropped sets WR_IGNORED and nothing else (R53, R149). -/
def dropWrite (s : State) : State := { s with wrIgnored := true }

/-- A host's write of `v` to CMD (R66): issue if no command is pending, else a dropped write. -/
def issue (v : Word) (s : State) : State :=
  if s.busy then dropWrite s else { s with pendCmd := v, busy := true, done := false }

/-- The register at an offset from BASE (R18); none at the reserved offsets (R33) and at offsets that are not a multiple of
4 (R47). -/
def regAt (off : Nat) : Option Reg :=
  match off with
  | 0x00 => some .id
  | 0x04 => some .version
  | 0x08 => some .config
  | 0x0C => some .cmd
  | 0x10 => some .status
  | 0x14 => some .msgLen
  | 0x18 => some .remain
  | 0x20 => some (.key 0)
  | 0x24 => some (.key 1)
  | 0x28 => some (.key 2)
  | 0x2C => some (.key 3)
  | 0x30 => some (.key 4)
  | 0x34 => some (.key 5)
  | 0x38 => some (.key 6)
  | 0x3C => some (.key 7)
  | 0x40 => some (.iv 0)
  | 0x44 => some (.iv 1)
  | 0x48 => some (.iv 2)
  | 0x4C => some (.iv 3)
  | 0x50 => some (.din 0)
  | 0x54 => some (.din 1)
  | 0x58 => some (.din 2)
  | 0x5C => some (.din 3)
  | 0x60 => some (.dout 0)
  | 0x64 => some (.dout 1)
  | 0x68 => some (.dout 2)
  | 0x6C => some (.dout 3)
  | 0x70 => some (.chain 0)
  | 0x74 => some (.chain 1)
  | 0x78 => some (.chain 2)
  | 0x7C => some (.chain 3)
  | _ => none

/-- The register an access of `size` bytes at an offset reaches; none is a bus error (R47, R48, R51). -/
def accessedReg (off size : Nat) : Option Reg := if size = 4 then regAt off else none

/-- The value a host reads from a register (R52). ID and VERSION are hardwired (R23, R24); CMD and KEY0..KEY7 are
write-only and read 0 (R26, R34). -/
def readReg (r : Reg) (s : State) : Word :=
  match r with
  | .id => 0x41455343
  | .version => 0x00000100
  | .config => configWord s
  | .cmd => 0
  | .status => statusWord s
  | .msgLen => s.msgLen
  | .remain => s.remain
  | .key _ => 0
  | .iv k => (s.iv.quad k.val).toWord
  | .din k => (s.din.quad k.val).toWord
  | .dout k => (s.dout.quad k.val).toWord
  | .chain k => (s.chain.quad k.val).toWord

/-- Whether a register is guarded: `off in {0x08, 0x0C, 0x14} or 0x20 <= off <= 0x5C` (R18, R53). -/
def Reg.guarded : Reg → Bool
  | .id => false
  | .version => false
  | .config => true
  | .cmd => true
  | .status => false
  | .msgLen => true
  | .remain => false
  | .key _ => true
  | .iv _ => true
  | .din _ => true
  | .dout _ => false
  | .chain _ => false

/-- A host's write of `v` to a register (R53). Writes to read-only registers are ignored. -/
def writeReg (r : Reg) (v : Word) (s : State) : State :=
  if r.guarded && s.busy then dropWrite s
  else match r with
    | .id => s
    | .version => s
    | .config => writeConfig v s
    | .cmd => issue v s
    | .status => writeStatus v s
    | .msgLen => { s with msgLen := v }
    | .remain => s
    | .key k => { s with keyIn := s.keyIn.setQuad k.val (quadOfWord v) }
    | .iv k => { s with iv := s.iv.setQuad k.val (quadOfWord v) }
    | .din k => { s with din := s.din.setQuad k.val (quadOfWord v) }
    | .dout _ => s
    | .chain _ => s

/-- The offset from BASE of a bus address in the window BASE .. BASE + 0xFF (R44); none outside it. -/
def windowOffset (addr : Nat) : Option Nat :=
  if Config.base ≤ addr ∧ addr < Config.base + 0x100 then some (addr - Config.base) else none

/-- `MemRead` at an offset of the window (R51, R52): the response is the register's value or a bus error, and the core's
state is unchanged (R50). -/
def readWindow (off size : Nat) (s : State) : State :=
  match accessedReg off size with
  | none => { s with resp := .busError }
  | some r => { s with resp := .data (readReg r s) }

/-- `MemWrite` at an offset of the window (R51, R53): a bus error changes no state of the core. -/
def writeWindow (off size : Nat) (v : Word) (s : State) : State :=
  match accessedReg off size with
  | none => { s with resp := .busError }
  | some r => { writeReg r v s with resp := .written }

/-- A host's bus read. Outside the window it is no access to this core (R44, log 6). -/
def hostRead (addr size : Nat) (s : State) : Result :=
  match windowOffset addr with
  | none => .fault .outsideWindow
  | some off => .next (readWindow off size s)

/-- A host's bus write. Outside the window it is no access to this core (R44, log 6). -/
def hostWrite (addr size : Nat) (v : Word) (s : State) : Result :=
  match windowOffset addr with
  | none => .fault .outsideWindow
  | some off => .next (writeWindow off size v s)

/-- Assertion of the reset input: every piece of state of the core takes its reset value, and a pending command is
discarded (R143). The parameter RAW_BLOCK_OPS, the moves to come and the host's last response are not state of the core
and stay (log 17). -/
def resetCore (s : State) : State :=
  { State.reset with rawBlockOps := s.rawBlockOps, events := s.events, resp := s.resp }

end Sys2Proof.Machine
end

