-- ==== Sys2Proof/Machine/CbcDecrypt.lean ====
section
/-! DEFINITION. The CBC decryption commands DEC_START and DEC_BLOCK, with the padding validator (43_cbc_decrypt). -/

namespace Sys2Proof.Machine

/-- DEC_START opens a decryption session. Errors in this order: InvalidKeyMaterial without a key, InvalidCiphertextLength
when MSG_LEN is not a positive multiple of 16 (R110, R132). -/
def execDecStart (s : State) : Result :=
  if s.keyValid then
    if s.msgLen.toNat = 0 ∨ s.msgLen.toNat % 16 ≠ 0 then raise .invalidCiphertextLength s
    else succeed (openSession .dec s)
  else raise .invalidKeyMaterial s

/-- DEC_BLOCK decrypts the next block of the session. The final block is validated and stripped of its padding; if the
padding is invalid DOUT is zeroed, and PaddingValidationFailure is raised with the earlier writes standing. Outside a
decryption session it is SequenceError (R111, R128, R130). -/
def execDecBlock (s : State) : Result :=
  if s.session = .dec then
    withCipherKey s fun k =>
      if s.remain.toNat < 16 then .fault .remainUnderflow
      else
        let x := (aesDecrypt k s.din).xor s.chain
        let t := { s with chain := s.din, remain := s.remain - 16 }
        if t.remain.toNat > 0 then succeed { t with dout := x, outLen := 16, last := false }
        else
          let t := { t with last := true, session := .idle }
          if validPadding x then
            succeed { t with dout := stripPadding x, outLen := BitVec.ofNat 5 (16 - padValue x) }
          else raise .paddingValidationFailure { t with dout := .zero, outLen := 0 }
  else raise .sequenceError s

end Sys2Proof.Machine
end

