-- ==== Sys2Proof/Machine/CbcEncrypt.lean ====
section
/-! DEFINITION. The CBC encryption commands ENC_START and ENC_BLOCK, with the padding injector (42_cbc_encrypt). -/

namespace Sys2Proof.Machine

/-- ENC_START opens an encryption session; without a key it is InvalidKeyMaterial (R100, R124). -/
def execEncStart (s : State) : Result :=
  if s.keyValid then succeed (openSession .enc s) else raise .invalidKeyMaterial s

/-- ENC_BLOCK encrypts the next block of the session; with fewer than 16 bytes remaining it pads the block and closes the
session. Outside an encryption session it is SequenceError (R101, R130). -/
def execEncBlock (s : State) : Result :=
  if s.session = .enc then
    withCipherKey s fun k =>
      if 16 ≤ s.remain.toNat then
        let c := aesEncrypt k (s.din.xor s.chain)
        succeed { s with remain := s.remain - 16, chain := c, dout := c, outLen := 16, last := false }
      else
        let c := aesEncrypt k ((padBlock s.remain.toNat s.din).xor s.chain)
        succeed { s with remain := 0, chain := c, dout := c, outLen := 16, last := true, session := .idle }
  else raise .sequenceError s

end Sys2Proof.Machine
end

