-- ==== Sys2Proof/Machine/Control.lean ====
section
/-! DEFINITION. The control commands NOP and ABORT (44_control). A meaning is the body of Execute for its opcode together
with the completion (R67); the engine runs it when the command is pending (log 15). -/

namespace Sys2Proof.Machine

/-- NOP writes nothing but the completion fields (R117). -/
def execNop (s : State) : Result := succeed s

/-- ABORT ends any open session and clears the data path; it does not touch the key (R118). -/
def execAbort (s : State) : Result :=
  succeed { endSession s with chain := .zero, dout := .zero, outLen := 0, last := false }

end Sys2Proof.Machine
end

