-- ==== Sys2Proof/Machine/Key.lean ====
section
/-! DEFINITION. The key management commands KEY_INIT and KEY_CLEAR (41_key). -/

namespace Sys2Proof.Machine

/-- KEY_INIT loads the key latch from KEY_IN for the length CONFIG.KEY_BITS asks for, and ends any open session; a length
that is not supported is UnsupportedKeyLength and changes nothing else (R93, R122). -/
def execKeyInit (s : State) : Result :=
  let len := KLen.ofKeyBits s.keyBits
  match len.words with
  | none => raise .unsupportedKeyLength s
  | some nk => succeed (endSession { s with keyLat := s.keyIn.keepQuads nk, klen := len, keyValid := true })

/-- KEY_CLEAR zeroes KEY_IN and KEY_LAT and ends any open session (R94). -/
def execKeyClear (s : State) : Result :=
  succeed (endSession { s with keyIn := .zero, keyLat := .zero, klen := .none, keyValid := false })

end Sys2Proof.Machine
end

