-- ==== Sys2Proof/Machine/RawBlock.lean ====
section
/-! DEFINITION. The raw single-block commands AES_ENC and AES_DEC (40_aes_block, section 5). In a build with
RAW_BLOCK_OPS = 0 they are illegal commands (R68); the decoder already refuses their words there (log 15). -/

namespace Sys2Proof.Machine

/-- AES_ENC encrypts DIN under the latched key; without a key it is InvalidKeyMaterial (R91). -/
def execAesEnc (s : State) : Result :=
  if s.rawBlockOps then
    if s.keyValid then withCipherKey s fun k => succeed (rawOutput (aesEncrypt k s.din) s)
    else raise .invalidKeyMaterial s
  else raise .illegalCommand s

/-- AES_DEC decrypts DIN under the latched key; without a key it is InvalidKeyMaterial (R92). -/
def execAesDec (s : State) : Result :=
  if s.rawBlockOps then
    if s.keyValid then withCipherKey s fun k => succeed (rawOutput (aesDecrypt k s.din) s)
    else raise .invalidKeyMaterial s
  else raise .illegalCommand s

end Sys2Proof.Machine
end

