-- ==== Sys2Proof/Machine/Engine.lean ====
section
/-! DEFINITION. The engine's move and every other agent's move (R15, R67). -/

namespace Sys2Proof.Machine

/-- The engine's move (R67), enabled exactly when BUSY = 1: the pending command completes; a word that is no command completes
with IllegalCommand (R68, R69). With BUSY = 0 the engine does nothing (R142). -/
def engineMove (s : State) : Result :=
  if s.busy then
    match decode s.rawBlockOps s.pendCmd with
    | .ok i => exec i s
    | .error _ => raise .illegalCommand s
  else .next s

/-- One move of one agent (R15). -/
def move (e : Event) (s : State) : Result :=
  match e with
  | .read addr size => hostRead addr size s
  | .write addr size v => hostWrite addr size v s
  | .engine => engineMove s
  | .reset => .next (resetCore s)

/-- The next state of the whole machine: the next move of the schedule is taken off it and made (R56). When no move is left the
engine has its turn, so that a pending command completes (R157, log 4). -/
def advance (s : State) : Result :=
  match s.events with
  | [] => engineMove s
  | e :: rest => move e { s with events := rest }

/-- A command word accepted at issue (R66), the engine's turn next: `w` is the value of the `nbits` lowest bits of the word and
the bits above are 0. -/
def fetchWord (nbits w : Nat) (s : State) : State :=
  { s with
    pendCmd := BitVec.ofNat 32 (w % 2 ^ nbits)
    busy := true
    done := false
    events := .engine :: s.events }

end Sys2Proof.Machine
end

