-- ==== Sys2Proof/Machine/Step.lean ====
section
/-! DEFINITION. One step of the machine. The core fetches no instructions (R19, R61): a command is the word a host wrote to CMD,
held in PEND_CMD until the engine completes it (log 14). -/

namespace Sys2Proof.Machine

/-- One step: one move of one agent (R15, R56). -/
def step (s : State) : Host.Outcome State Fault Refusal := Sys2Proof.Machine.advance s

/-- `s` with the command word `w` pending, as an accepted CMD write leaves it (R66), and the engine to move next, so that the next
step completes exactly that command (log 14). -/
def State.withFetchWord (s : State) (nbits w : Nat) : State := Sys2Proof.Machine.fetchWord nbits w s

end Sys2Proof.Machine
end

