-- ==== Sys2Proof/Machine/Message.lean ====
section
/-! DEFINITION. The document's message-level functions that sessions compute (R96 to R99, R105 to R108). No step of the machine
calls them; claims about sessions are stated in terms of them. -/

namespace Sys2Proof.Machine

/-- PKCS#7: `Pad(M) = M ++ rep(p, p)` with `p = 16 - (L mod 16)` (R97). -/
def padMessage (m : List Byte) : List Byte :=
  m ++ List.replicate (16 - m.length % 16) (BitVec.ofNat 8 (16 - m.length % 16))

/-- A byte string of `16 n` bytes as its `n` blocks: block `i` is bytes `16 i .. 16 i + 15` (R96). -/
def blocksOf (q : List Byte) : List Block :=
  (List.range (q.length / 16)).map fun i => Block.ofFn fun j => q.getD (16 * i + j) 0

/-- The bytes of a list of blocks, in order. -/
def bytesOf (bs : List Block) : List Byte := bs.flatMap Block.toList

/-- CBC_Enc on blocks, `v` the block before the first (R96). -/
def cbcEncrypt (k : List Byte) (v : Block) : List Block → List Block
  | [] => []
  | q :: qs => aesEncrypt k (q.xor v) :: cbcEncrypt k (aesEncrypt k (q.xor v)) qs

/-- CBC_Dec on blocks, `v` the block before the first (R105). -/
def cbcDecrypt (k : List Byte) (v : Block) : List Block → List Block
  | [] => []
  | c :: cs => (aesDecrypt k c).xor v :: cbcDecrypt k c cs

/-- `encrypt(M, V, K) = CBC_Enc(K, V, Pad(M))`, as blocks (R99). -/
def encryptMessage (k : List Byte) (v : Block) (m : List Byte) : List Block :=
  cbcEncrypt k v (blocksOf (padMessage m))

/-- `decrypt(C, V, K)` (R108): the length is checked first, then all blocks are decrypted, then the last block's padding is
validated and removed. -/
def decryptMessage (k : List Byte) (v : Block) (c : List Byte) : Except ErrCode (List Byte) :=
  if c.length = 0 ∨ c.length % 16 ≠ 0 then .error .invalidCiphertextLength
  else
    let qs := cbcDecrypt k v (blocksOf c)
    let x := qs.getLastD .zero
    if validPadding x then .ok ((bytesOf qs).take (c.length - padValue x))
    else .error .paddingValidationFailure

end Sys2Proof.Machine
end

