-- ==== Sys2Proof/Safety.lean ====
section
/-! DEFINITION. What claims are stated with: the invariants of R41, the schedules that stay inside the register window, and
the host's command sequences of a session (R72, R102, R113). -/

namespace Sys2Proof.Machine

/-- R41 (a): an open session implies a loaded key. -/
abbrev State.SessionNeedsKey (s : State) : Prop := s.session ≠ .idle → s.keyValid = true

/-- R41 (b): in a decryption session REMAIN is a positive multiple of 16. -/
abbrev State.DecryptRemainAligned (s : State) : Prop :=
  s.session = .dec → 16 ≤ s.remain.toNat ∧ s.remain.toNat % 16 = 0

/-- R41 (c): without a session nothing remains. -/
abbrev State.IdleRemainsZero (s : State) : Prop := s.session = .idle → s.remain = 0

/-- R41 (d): OUT_LEN is at most 16, and DOUT is zero from there on. -/
abbrev State.OutputTailZero (s : State) : Prop :=
  s.outLen.toNat ≤ 16 ∧ ∀ i < 16, s.outLen.toNat ≤ i → s.dout.get i = 0

/-- R41 (e): as numbers, SESSION is never 3 and ERR_CODE is at most 9. -/
abbrev State.CodesInRange (s : State) : Prop := s.session.bits ≠ 3 ∧ s.errCode.code.toNat ≤ 9

/-- R41 (f): KEY_VALID agrees with KLEN, and KEY_LAT is zero past the key. With no key, all of it is zero. -/
abbrev State.KeyConsistent (s : State) : Prop :=
  (s.keyValid = true ↔ s.klen ≠ .none) ∧
    ∀ i < 32, 4 * s.klen.words.getD 0 ≤ i → s.keyLat.get i = 0

/-- R41 (g): a pending command means DONE = 0. -/
abbrev State.BusyNotDone (s : State) : Prop := s.busy = true → s.done = false

/-- The invariants of R41, which every reachable state has. -/
structure State.Inv (s : State) : Prop where
  sessionNeedsKey : s.SessionNeedsKey
  decryptRemainAligned : s.DecryptRemainAligned
  idleRemainsZero : s.IdleRemainsZero
  outputTailZero : s.OutputTailZero
  codesInRange : s.CodesInRange
  keyConsistent : s.KeyConsistent
  busyNotDone : s.BusyNotDone

/-- A host's access is to an address of the window BASE .. BASE + 0xFF (R44); the other moves make no access. -/
def Event.InWindow : Event → Prop
  | .read addr _ => Config.base ≤ addr ∧ addr ≤ Config.base + 0xFF
  | .write addr _ _ => Config.base ≤ addr ∧ addr ≤ Config.base + 0xFF
  | .engine => True
  | .reset => True

/-- A host's writes of the four words of a block to DIN0..DIN3 (`set_din`, R71). -/
def setDinMoves (b : Block) : List Event :=
  [.write (Config.base + 0x50) 4 b.q0.toWord, .write (Config.base + 0x54) 4 b.q1.toWord,
   .write (Config.base + 0x58) 4 b.q2.toWord, .write (Config.base + 0x5C) 4 b.q3.toWord]

/-- A host issues command `i`, and the engine completes it (`cmd MNEMONIC; wait`, R70, R71). -/
def commandMoves (i : Instr) : List Event := [.write (Config.base + 0x0C) 4 (encode i), .engine]

/-- A host's writes of the four words of a block to IV0..IV3 (`set_iv`, R71). -/
def setIvMoves (v : Block) : List Event :=
  [.write (Config.base + 0x40) 4 v.q0.toWord, .write (Config.base + 0x44) 4 v.q1.toWord,
   .write (Config.base + 0x48) 4 v.q2.toWord, .write (Config.base + 0x4C) 4 v.q3.toWord]

/-- A host sets the IV and MSG_LEN and issues a start command, which the engine completes (R71, R72): seven moves. -/
def startMoves (start : Instr) (v : Block) (len : Nat) : List Event :=
  setIvMoves v ++ [.write (Config.base + 0x14) 4 (BitVec.ofNat 32 len)] ++ commandMoves start

/-- A host writes each block to DIN and issues a block command, which the engine completes (R71, R72): six moves a block. -/
def blockMoves (block : Instr) (ds : List Block) : List Event := ds.flatMap fun d => setDinMoves d ++ commandMoves block

/-- The states after each of the completions of command `i` when a host writes the blocks `ds` to DIN, one before each (R72);
none if one of them does not complete. -/
def runBlocks (i : Instr) : List Block → State → Option (List State)
  | [], _ => some []
  | d :: ds, s =>
    match exec i { s with din := d } with
    | .next t => (runBlocks i ds t).map (t :: ·)
    | _ => none

/-- The states of a session: the one after start command `start` under IV `v` for a message of `len` bytes, and those after
each `block` command (R72, R102, R113). -/
def runSession (start block : Instr) (v : Block) (len : Nat) (ds : List Block) (s : State) :
    Option (State × List State) :=
  match exec start { s with iv := v, msgLen := BitVec.ofNat 32 len } with
  | .next t => (runBlocks block ds t).map fun ts => (t, ts)
  | _ => none

/-- `ts` are the states after each block of a session that a host runs by its bus accesses from `s`, with no other access between
(R72): on the bus PEND_CMD holds the block command's word, and the model's own fields are at the moves still to come. -/
def OnTheBus (start block : Instr) (v : Block) (len : Nat) (ds : List Block) (s : State) (ts : List State) : Prop :=
  ∀ rest, s.busy = false → s.events = startMoves start v len ++ blockMoves block ds ++ rest →
    ∀ i < ts.length, Host.Core.run Sys2Proof.core (7 + 6 * (i + 1)) s = .next { ts.getD i s with
      pendCmd := encode block, resp := .written, events := blockMoves block (ds.drop (i + 1)) ++ rest }

/-- `K` is the key of the cipher commands: the first `4 * Nk` bytes of KEY_LAT, with Nk = 4, 6 or 8 for KLEN = 1, 2 or 3
(R30, R64). -/
def State.LatchedKey (s : State) (K : List Byte) : Prop :=
  ∃ nk, ((s.klen = .bits128 ∧ nk = 4) ∨ (s.klen = .bits192 ∧ nk = 6) ∨ (s.klen = .bits256 ∧ nk = 8)) ∧
    K = s.keyLat.toList.take (4 * nk)

/-- The last `p` bytes of `X` are padding of value `p`, 1 <= p <= 16: `Valid(X)` with pad value `p` (R106). -/
def PaddedBy (x : Block) (p : Nat) : Prop :=
  1 ≤ p ∧ p ≤ 16 ∧ x.toList.drop (16 - p) = List.replicate p (BitVec.ofNat 8 p)

/-- A word that is no command in a build with RAW_BLOCK_OPS = `raw`: RSVD is not 0, or the opcode is 0x0A to 0xFF, or 0x08 or
0x09 without the raw block commands (R69). -/
def IllegalWord (raw : Bool) (w : Word) : Prop :=
  256 ≤ w.toNat ∨ 10 ≤ w.toNat % 256 ∨ (raw = false ∧ (w.toNat % 256 = 8 ∨ w.toNat % 256 = 9))

/-- The valid bytes of DOUT: the first OUT_LEN of them (R37, R71). -/
def State.validOutput (s : State) : List Byte := s.dout.toList.take s.outLen.toNat

/-- The blocks `ds` hold the message `m` as an encryption session reads it: `m.length div 16 + 1` blocks whose bytes are those of
`m`, and anything past its end (R72, R102). -/
def HoldMessage (ds : List Block) (m : List Byte) : Prop :=
  ds.length = m.length / 16 + 1 ∧
    ∀ i j, j < 16 → 16 * i + j < m.length → (ds.getD i .zero).get j = m.getD (16 * i + j) 0

end Sys2Proof.Machine
end

