-- ==== Sys2Proof/Certificates/Slice0/Obligations.lean ====
section
/-! DEFINITION. The statements for the provers. Each says which rule of the spec it formalises; the state it is about is any
state, reachable or not, unless the invariants of R41 are a premise. -/

open Sys2Proof Sys2Proof.Machine

/-! ### Command words (R63, R68, R69) -/

/-- Some of the command words as the format R63 and the opcode map R68 give them. -/
def Obligations.CommandWordsDecodeAsTheMapSays : Prop :=
  decode true 0x00000000 = .ok .nop ∧ decode true 0x00000001 = .ok .keyInit ∧
  decode false 0x00000003 = .ok .encStart ∧ decode false 0x00000006 = .ok .decBlock ∧
  decode true 0x00000008 = .ok .aesEnc ∧ decode false 0x00000008 = .error .rawBlockOpsAbsent ∧
  decode true 0x0000000A = .error .reservedOpcode ∧ decode true 0x00000105 = .error .reservedBitsSet

/-- R68: the decode of every word, in builds with and without the raw block commands, and what a word that is none does when
it is pending. -/
def Obligations.DecodeAcceptsExactlyTheCommandWords : Prop :=
  (∀ (raw : Bool) (w : Word),
    (decode raw w = .ok .nop ↔ w = 0) ∧ (decode raw w = .ok .keyInit ↔ w = 1) ∧
    (decode raw w = .ok .keyClear ↔ w = 2) ∧ (decode raw w = .ok .encStart ↔ w = 3) ∧
    (decode raw w = .ok .decStart ↔ w = 4) ∧ (decode raw w = .ok .encBlock ↔ w = 5) ∧
    (decode raw w = .ok .decBlock ↔ w = 6) ∧ (decode raw w = .ok .abort ↔ w = 7) ∧
    (decode raw w = .ok .aesEnc ↔ w = 8 ∧ raw = true) ∧ (decode raw w = .ok .aesDec ↔ w = 9 ∧ raw = true) ∧
    ((∃ i, decode raw w = .ok i) ↔ w.toNat ≤ 7 ∨ (raw = true ∧ (w.toNat = 8 ∨ w.toNat = 9)))) ∧
  (∀ s : State, s.busy = true → (∀ i, decode s.rawBlockOps s.pendCmd ≠ .ok i) →
    engineMove s = raise .illegalCommand s)

/-- Decode and encode agree, both ways: a word decodes to a command exactly when it is that command's word and the build has the
command (R63, R68). -/
def Obligations.DecodeInvertsEncode : Prop :=
  ∀ (raw : Bool) (w : Word) (i : Instr), decode raw w = .ok i ↔ (w = encode i ∧ i.wellFormed raw = true)

/-- R69, R129: an illegal word that is pending completes with code 8 and nothing but the completion fields changes. -/
def Obligations.IllegalWordsFailWithIllegalCommand : Prop :=
  ∀ (s : State) (rest : List Event), s.events = .engine :: rest → s.busy = true →
    IllegalWord s.rawBlockOps s.pendCmd →
    step s = .next { s with events := rest, errCode := .illegalCommand, errSticky := true, busy := false, done := true }

/-! ### Steps, completion and the order of moves (R15, R56, R67, R143) -/

/-- When a command is pending and it is the engine's turn, a step is that command's completion (R15, R67); the schedule's entry is
taken off first. That with no move left the turn is the engine's is the model's choice (logs 3, 4). -/
def Obligations.StepRunsThePendingCommand : Prop :=
  ∀ (s : State) (i : Instr), s.busy = true → decode s.rawBlockOps s.pendCmd = .ok i →
    (s.events = [] → step s = exec i s) ∧
    (∀ rest, s.events = .engine :: rest → step s = exec i { s with events := rest })

/-- R67: a completion writes ERR_CODE, ERR_STICKY, BUSY and DONE as the rule says, and a command that fails, but for
PaddingValidationFailure, makes no other write. That the engine's turn with BUSY = 0 changes nothing is how the model says that its
step is not enabled (log 4). -/
def Obligations.CompletionWritesTheCompletionFields : Prop :=
  ∀ s : State,
    (s.busy = false → engineMove s = .next s) ∧
    (s.busy = true → ∀ t, engineMove s = .next t →
      t.busy = false ∧ t.done = true ∧
      (t.errSticky = true ↔ s.errSticky = true ∨ t.errCode ≠ .ok) ∧
      (t.errCode ≠ .ok → t.errCode ≠ .paddingValidationFailure →
        t = { s with errCode := t.errCode, errSticky := true, busy := false, done := true }))

/-- R42: whatever came before, a reset leaves every register, field and hidden register at its reset value, so that no command is
pending (R143). -/
def Obligations.ResetLeavesTheResetValues : Prop :=
  ∀ (s : State) (rest : List Event), s.events = .reset :: rest → ∃ t, step s = .next t ∧
    t.keyBits = 128 ∧ t.irqEn = false ∧ t.msgLen = 0 ∧ t.remain = 0 ∧
    t.busy = false ∧ t.done = false ∧ t.keyValid = false ∧ t.last = false ∧
    t.errSticky = false ∧ t.wrIgnored = false ∧ t.session = .idle ∧
    t.outLen = 0 ∧ t.errCode = .ok ∧ t.klen = .none ∧
    (∀ i < 32, t.keyIn.get i = 0 ∧ t.keyLat.get i = 0) ∧
    (∀ i < 16, t.iv.get i = 0 ∧ t.din.get i = 0 ∧ t.dout.get i = 0 ∧ t.chain.get i = 0) ∧
    t.pendCmd = 0 ∧ t.irq = false ∧
    readReg .id t = 0x41455343 ∧ readReg .version t = 0x00000100

/-- The state after reset meets the invariants of R41. -/
def Obligations.ResetStateMeetsTheInvariants : Prop :=
  State.reset.Inv ∧ ∀ (raw : Bool) (evs : List Event), { State.reset with rawBlockOps := raw, events := evs }.Inv

/-- Every step, of any agent and from any state that meets the invariants of R41, keeps them. -/
def Obligations.EveryStepKeepsTheInvariants : Prop :=
  ∀ s t : State, s.Inv → step s = .next t → t.Inv

/-- R41: every state that any schedule of host accesses, completions and resets reaches from reset, in either build, meets the
invariants. -/
def Obligations.EveryReachableStateMeetsTheInvariants : Prop :=
  ∀ (raw : Bool) (evs : List Event) (n : Nat) (t : State),
    Host.Core.run Sys2Proof.core n { State.reset with rawBlockOps := raw, events := evs } = .next t → t.Inv

/-- The machine never stops in a state that meets the invariants, but for a host's access outside the window: every command
completes, with success or with a code (R41, R120). -/
def Obligations.InvariantStatesNeverStop : Prop :=
  ∀ s : State, s.Inv → (∀ e rest, s.events = e :: rest → e.InWindow) → ∃ t, step s = .next t ∧ t.Inv

/-! ### The register window (R27, R44 to R53, R66, R149 to R151) -/

/-- R52: what a 4-byte read at each register's offset returns; the core's state is unchanged. -/
def Obligations.ReadReturnsTheRegisterMap : Prop :=
  ∀ (s : State) (rest : List Event) (off : Nat), s.events = .read (Config.base + off) 4 :: rest →
    (off = 0x00 → step s = .next { s with events := rest, resp := .data 0x41455343 }) ∧
    (off = 0x04 → step s = .next { s with events := rest, resp := .data 0x00000100 }) ∧
    (off = 0x08 → ∃ w : Word, step s = .next { s with events := rest, resp := .data w } ∧
      w.toNat = s.irqEn.toNat * 2 ^ 16 + s.keyBits.toNat) ∧
    (off = 0x0C → step s = .next { s with events := rest, resp := .data 0 }) ∧
    (off = 0x10 → ∃ w : Word, step s = .next { s with events := rest, resp := .data w } ∧
      w.toNat = s.busy.toNat + 2 * s.done.toNat + 4 * s.keyValid.toNat + 8 * s.session.bits.toNat +
        32 * s.last.toNat + 64 * s.errSticky.toNat + 128 * s.wrIgnored.toNat + 256 * s.outLen.toNat +
        65536 * s.errCode.code.toNat + 1048576 * s.klen.bits.toNat) ∧
    (off = 0x14 → step s = .next { s with events := rest, resp := .data s.msgLen }) ∧
    (off = 0x18 → step s = .next { s with events := rest, resp := .data s.remain }) ∧
    (∀ k < 8, off = 0x20 + 4 * k → step s = .next { s with events := rest, resp := .data 0 }) ∧
    (∀ k < 4, off = 0x40 + 4 * k → ∃ w : Word, step s = .next { s with events := rest, resp := .data w } ∧
      ∀ j < 4, w.extractLsb' (8 * j) 8 = s.iv.get (4 * k + j)) ∧
    (∀ k < 4, off = 0x50 + 4 * k → ∃ w : Word, step s = .next { s with events := rest, resp := .data w } ∧
      ∀ j < 4, w.extractLsb' (8 * j) 8 = s.din.get (4 * k + j)) ∧
    (∀ k < 4, off = 0x60 + 4 * k → ∃ w : Word, step s = .next { s with events := rest, resp := .data w } ∧
      ∀ j < 4, w.extractLsb' (8 * j) 8 = s.dout.get (4 * k + j)) ∧
    (∀ k < 4, off = 0x70 + 4 * k → ∃ w : Word, step s = .next { s with events := rest, resp := .data w } ∧
      ∀ j < 4, w.extractLsb' (8 * j) 8 = s.chain.get (4 * k + j))

/-- R53: what a 4-byte write at each register's offset does: a guarded write while BUSY = 1 is dropped, a write to a read-only
register is ignored, and any other write changes its register and nothing else. None of them is a bus error (R51). -/
def Obligations.WriteFollowsTheRegisterMap : Prop :=
  ∀ (s : State) (rest : List Event) (off : Nat) (v : Word), s.events = .write (Config.base + off) 4 v :: rest →
    (s.busy = true →
      off = 0x08 ∨ off = 0x0C ∨ off = 0x14 ∨ (0x20 ≤ off ∧ off ≤ 0x5C ∧ off % 4 = 0) →
      step s = .next { s with events := rest, resp := .written, wrIgnored := true }) ∧
    (off = 0x00 ∨ off = 0x04 ∨ off = 0x18 ∨ (0x60 ≤ off ∧ off ≤ 0x7C ∧ off % 4 = 0) →
      step s = .next { s with events := rest, resp := .written }) ∧
    (off = 0x10 → step s = .next { s with
      events := rest, resp := .written
      done := s.done && !v.getLsbD 1
      errSticky := s.errSticky && !v.getLsbD 6
      wrIgnored := s.wrIgnored && !v.getLsbD 7 }) ∧
    (s.busy = false →
      (off = 0x08 → step s = .next { s with
        events := rest, resp := .written, keyBits := BitVec.ofNat 16 v.toNat, irqEn := v.getLsbD 16 }) ∧
      (off = 0x0C → step s = .next { s with
        events := rest, resp := .written, pendCmd := v, busy := true, done := false }) ∧
      (off = 0x14 → step s = .next { s with events := rest, resp := .written, msgLen := v }) ∧
      (∀ k < 8, off = 0x20 + 4 * k → ∃ b, step s = .next { s with events := rest, resp := .written, keyIn := b } ∧
        ∀ i < 32, b.get i = if i / 4 = k then v.extractLsb' (8 * (i % 4)) 8 else s.keyIn.get i) ∧
      (∀ k < 4, off = 0x40 + 4 * k → ∃ b, step s = .next { s with events := rest, resp := .written, iv := b } ∧
        ∀ i < 16, b.get i = if i / 4 = k then v.extractLsb' (8 * (i % 4)) 8 else s.iv.get i) ∧
      (∀ k < 4, off = 0x50 + 4 * k → ∃ b, step s = .next { s with events := rest, resp := .written, din := b } ∧
        ∀ i < 16, b.get i = if i / 4 = k then v.extractLsb' (8 * (i % 4)) 8 else s.din.get i))

/-- R66: the issue of a command, for every word: accepted without any check when no command is pending, dropped otherwise. -/
def Obligations.CmdWriteIssuesTheCommand : Prop :=
  ∀ (s : State) (rest : List Event) (v : Word), s.events = .write (Config.base + 0x0C) 4 v :: rest → ∃ t, step s = .next t ∧
    (s.busy = true → t = { s with events := rest, resp := .written, wrIgnored := true }) ∧
    (s.busy = false → t = { s with events := rest, resp := .written, pendCmd := v, busy := true, done := false })

/-- R51 (with R33, R47, R48): which accesses of the window are bus errors, and that they change no state; `resp` is the host's
answer, no state of the core (log 5). -/
def Obligations.BusErrorsChangeNothing : Prop :=
  ∀ (s : State) (rest : List Event) (off size : Nat) (v : Word), off ≤ 0xFF →
    (s.events = .read (Config.base + off) size :: rest ∨ s.events = .write (Config.base + off) size v :: rest) →
    ∃ t, step s = .next t ∧
      (t.resp = .busError ↔ size ≠ 4 ∨ off % 4 ≠ 0 ∨ off = 0x1C ∨ 0x80 ≤ off) ∧
      (t.resp = .busError → t = { s with events := rest, resp := .busError })

/-- An access outside the window BASE .. BASE + 0xFF is none to this core and stops the model (R44). That it stops, and how it is
named, is the model's choice (log 6). -/
def Obligations.AccessOutsideTheWindowStops : Prop :=
  ∀ (s : State) (rest : List Event) (addr size : Nat) (v : Word),
    (s.events = .read addr size :: rest ∨ s.events = .write addr size v :: rest) →
    (addr < Config.base ∨ Config.base + 0xFF < addr) → step s = .fault .outsideWindow

/-- R50: two reads of a register in a row return the same, and writing any register but CMD and STATUS twice is writing it
once. -/
def Obligations.ReadsAndPlainWritesAreIdempotent : Prop :=
  (∀ (s : State) (rest : List Event) (addr size : Nat) (t u : State),
    s.events = .read addr size :: .read addr size :: rest →
    step s = .next t → step t = .next u → u = { s with events := rest, resp := t.resp }) ∧
  (∀ (s : State) (rest : List Event) (off size : Nat) (v : Word) (t u : State),
    s.events = .write (Config.base + off) size v :: .write (Config.base + off) size v :: rest →
    off ≠ 0x0C → off ≠ 0x10 → step s = .next t → step t = .next u → u = { t with events := rest })

/-- R150: while a command is pending, any number of host accesses in a row leave the pending word, BUSY, and every register a
command reads as they are; so a command's operands hold at its completion what they held at its issue. -/
def Obligations.OperandsAreStableWhileBusy : Prop :=
  ∀ (s t : State) (es rest : List Event), s.busy = true →
    (∀ e ∈ es, (∃ addr size, e = .read addr size) ∨ ∃ addr size v, e = .write addr size v) →
    s.events = es ++ rest → Host.Core.run Sys2Proof.core es.length s = .next t →
    t.busy = true ∧ t.events = rest ∧ t.pendCmd = s.pendCmd ∧ t.rawBlockOps = s.rawBlockOps ∧
    t.keyBits = s.keyBits ∧ t.keyIn = s.keyIn ∧ t.keyValid = s.keyValid ∧
    t.iv = s.iv ∧ t.msgLen = s.msgLen ∧ t.session = s.session ∧ t.remain = s.remain ∧ t.din = s.din ∧
    t.chain = s.chain ∧ t.keyLat = s.keyLat ∧ t.klen = s.klen

/-- R151, R37: no host access changes a result; issue does not either, so a read while BUSY = 1 sees the previous command's. -/
def Obligations.ResultsChangeOnlyAtCompletionOrReset : Prop :=
  ∀ s t : State, step s = .next t →
    (t.dout ≠ s.dout ∨ t.outLen ≠ s.outLen ∨ t.last ≠ s.last ∨ t.errCode ≠ s.errCode ∨ t.chain ≠ s.chain ∨
      t.remain ≠ s.remain) →
    (s.busy = true ∧ t.busy = false ∧ t.done = true ∧ (s.events = [] ∨ ∃ rest, s.events = .engine :: rest)) ∨
    ∃ rest, s.events = .reset :: rest

/-- R134: IRQ is DONE and IRQ_EN. Every completion asserts it when it is enabled; an issue, a write of 1 to STATUS bit 1, and a write
of IRQ_EN = 0 deassert it, the last keeping DONE; after reset it is deasserted. -/
def Obligations.IrqFollowsDoneAndEnable : Prop :=
  (∀ s : State, s.irq = true ↔ s.done = true ∧ s.irqEn = true) ∧
  (∀ s t : State, s.busy = true → engineMove s = .next t → t.irq = s.irqEn) ∧
  (∀ (s : State) (v : Word), s.busy = false → (writeWindow 0x0C 4 v s).irq = false) ∧
  (∀ (s : State) (v : Word), v.getLsbD 1 = true → (writeWindow 0x10 4 v s).irq = false) ∧
  (∀ (s : State) (v : Word), s.busy = false → v.getLsbD 16 = false →
    (writeWindow 0x08 4 v s).irq = false ∧ (writeWindow 0x08 4 v s).done = s.done) ∧
  (∀ s : State, (resetCore s).irq = false)

/-- Key secrecy at the interface (R34, R39, R95): what a host read returns does not depend on KEY_IN or KEY_LAT. -/
def Obligations.HostReadsRevealNoKeyMaterial : Prop :=
  ∀ (s t : State) (rest : List Event) (addr size : Nat) (a b : KeyBytes), s.events = .read addr size :: rest →
    step s = .next t → step { s with keyIn := a, keyLat := b } = .next { t with keyIn := a, keyLat := b }

/-- Writing a block to DIN0..DIN3, issuing a command and its completion, as a host does for each block (R53, R66, R67, R71): six
steps that are the command's meaning on the state with DIN replaced. -/
def Obligations.HostBlockSequenceRunsTheCommand : Prop :=
  ∀ (s : State) (i : Instr) (b : Block) (rest : List Event),
    s.busy = false → i.wellFormed s.rawBlockOps = true → s.events = setDinMoves b ++ commandMoves i ++ rest →
    Host.Core.run Sys2Proof.core 5 s = .next { s with
      din := b, pendCmd := encode i, busy := true, done := false, resp := .written, events := .engine :: rest } ∧
    ∀ t, exec i { s with
        din := b, pendCmd := encode i, busy := true, done := false, resp := .written, events := rest } = .next t →
      Host.Core.run Sys2Proof.core 6 s = .next t

/-! ### Control and key commands (R93, R94, R117, R118) -/

/-- R117, R118: NOP writes only the completion fields; ABORT also ends the session and clears CHAIN, DOUT, OUT_LEN and LAST.
Neither fails. -/
def Obligations.NopAndAbortComplete : Prop :=
  ∀ s : State,
    exec .nop s = .next { s with errCode := .ok, busy := false, done := true } ∧
    ∃ z : Block, (∀ i < 16, z.get i = 0) ∧
      exec .abort s = .next { s with
        session := .idle, remain := 0, chain := z, dout := z, outLen := 0, last := false
        errCode := .ok, busy := false, done := true }

/-- R93, R122: KEY_INIT for every value of KEY_BITS. -/
def Obligations.KeyInitLoadsTheLatch : Prop :=
  ∀ s : State,
    (s.keyBits.toNat ≠ 128 → s.keyBits.toNat ≠ 192 → s.keyBits.toNat ≠ 256 →
      exec .keyInit s = .next { s with
        errCode := .unsupportedKeyLength, errSticky := true, busy := false, done := true }) ∧
    (∀ (nk : Nat) (len : KLen),
      (nk = 4 ∧ len = .bits128) ∨ (nk = 6 ∧ len = .bits192) ∨ (nk = 8 ∧ len = .bits256) →
      s.keyBits.toNat = 32 * nk →
      ∃ lat : KeyBytes, (∀ i < 32, lat.get i = if i < 4 * nk then s.keyIn.get i else 0) ∧
        exec .keyInit s = .next { s with
          keyLat := lat, klen := len, keyValid := true, session := .idle, remain := 0
          errCode := .ok, busy := false, done := true })

/-- R94: KEY_CLEAR zeroes the key input and the latch and never fails. From a state without a key, a step gives a key only by a
KEY_INIT that succeeds; until then every cipher command fails, with InvalidKeyMaterial or SequenceError. -/
def Obligations.KeyClearDestroysTheKey : Prop :=
  (∀ s : State, ∃ z : KeyBytes, (∀ i < 32, z.get i = 0) ∧ exec .keyClear s = .next { s with
    keyIn := z, keyLat := z, klen := .none, keyValid := false, session := .idle, remain := 0
    errCode := .ok, busy := false, done := true }) ∧
  (∀ s t : State, s.keyValid = false → step s = .next t → t.keyValid = true →
    s.busy = true ∧ decode s.rawBlockOps s.pendCmd = .ok .keyInit ∧ t.errCode = .ok) ∧
  (∀ s : State, s.Inv → s.keyValid = false →
    exec .encStart s = raise .invalidKeyMaterial s ∧ exec .decStart s = raise .invalidKeyMaterial s ∧
    exec .encBlock s = raise .sequenceError s ∧ exec .decBlock s = raise .sequenceError s ∧
    (s.rawBlockOps = true →
      exec .aesEnc s = raise .invalidKeyMaterial s ∧ exec .aesDec s = raise .invalidKeyMaterial s))

/-- R145: KEY_CLEAR, ABORT and writes of the reset values to CONFIG, MSG_LEN, IV and DIN and of ones to STATUS's W1C bits, all by
a host's bus accesses from any state with no command pending, reach the reset state. PEND_CMD alone is left at ABORT's word: it has no
meaning while BUSY = 0 (R40). -/
def Obligations.SoftwareResetReachesTheResetState : Prop :=
  ∀ (s : State) (rest : List Event), s.busy = false →
    s.events = commandMoves .keyClear ++ commandMoves .abort ++
      [.write (Config.base + 0x08) 4 0, .write (Config.base + 0x08) 4 128, .write (Config.base + 0x14) 4 0] ++
      setIvMoves .zero ++ setDinMoves .zero ++ [.write (Config.base + 0x10) 4 0xC2] ++ rest →
    Host.Core.run Sys2Proof.core 16 s = .next { State.reset with
      pendCmd := encode .abort, rawBlockOps := s.rawBlockOps, events := rest, resp := .written }

/-! ### CBC encryption (R100, R101) -/

/-- R100: ENC_START, with and without a key, for every MSG_LEN. -/
def Obligations.EncStartOpensASession : Prop :=
  ∀ s : State,
    (s.keyValid = false → exec .encStart s = .next { s with
      errCode := .invalidKeyMaterial, errSticky := true, busy := false, done := true }) ∧
    (s.keyValid = true → ∃ z : Block, (∀ i < 16, z.get i = 0) ∧ exec .encStart s = .next { s with
      chain := s.iv, remain := s.msgLen, session := .enc, last := false, dout := z, outLen := 0
      errCode := .ok, busy := false, done := true })

/-- R101, R130: ENC_BLOCK outside an encryption session, on a full block, and on the final block, which is
`DIN[0 .. n-1] ++ rep(p, p)`. -/
def Obligations.EncBlockEncryptsAndPads : Prop :=
  ∀ s : State,
    (s.session ≠ .enc → exec .encBlock s = .next { s with
      errCode := .sequenceError, errSticky := true, busy := false, done := true }) ∧
    (s.Inv → s.session = .enc → ∃ K P C, s.LatchedKey K ∧ C = aesEncrypt K (P.xor s.chain) ∧
      (16 ≤ s.remain.toNat → P = s.din ∧ ∃ r : Word, r.toNat = s.remain.toNat - 16 ∧
        exec .encBlock s = .next { s with
          remain := r, chain := C, dout := C, outLen := 16, last := false
          errCode := .ok, busy := false, done := true }) ∧
      (s.remain.toNat < 16 →
        P.toList = s.din.toList.take s.remain.toNat ++
          List.replicate (16 - s.remain.toNat) (BitVec.ofNat 8 (16 - s.remain.toNat)) ∧
        exec .encBlock s = .next { s with
          remain := 0, chain := C, dout := C, outLen := 16, last := true, session := .idle
          errCode := .ok, busy := false, done := true }))

/-! ### CBC decryption (R110, R111) -/

/-- R110, R126: DEC_START and its two checks, in their order. -/
def Obligations.DecStartChecksAndOpensASession : Prop :=
  ∀ s : State,
    (s.keyValid = false → exec .decStart s = .next { s with
      errCode := .invalidKeyMaterial, errSticky := true, busy := false, done := true }) ∧
    (s.keyValid = true → s.msgLen.toNat = 0 ∨ s.msgLen.toNat % 16 ≠ 0 → exec .decStart s = .next { s with
      errCode := .invalidCiphertextLength, errSticky := true, busy := false, done := true }) ∧
    (s.keyValid = true → 0 < s.msgLen.toNat → s.msgLen.toNat % 16 = 0 →
      ∃ z : Block, (∀ i < 16, z.get i = 0) ∧ exec .decStart s = .next { s with
        chain := s.iv, remain := s.msgLen, session := .dec, last := false, dout := z, outLen := 0
        errCode := .ok, busy := false, done := true })

/-- R111, R128, R130: DEC_BLOCK outside a decryption session, on a block that is not the final one, on a final block with valid
padding, and on a final block without, after which the command's writes stand and DOUT is zero. -/
def Obligations.DecBlockDecryptsAndValidates : Prop :=
  ∀ s : State,
    (s.session ≠ .dec → exec .decBlock s = .next { s with
      errCode := .sequenceError, errSticky := true, busy := false, done := true }) ∧
    (s.Inv → s.session = .dec → ∃ (K : List Byte) (X : Block) (r : Word), s.LatchedKey K ∧
      X = (aesDecrypt K s.din).xor s.chain ∧ r.toNat = s.remain.toNat - 16 ∧
      (16 < s.remain.toNat → exec .decBlock s = .next { s with
        chain := s.din, remain := r, dout := X, outLen := 16, last := false
        errCode := .ok, busy := false, done := true }) ∧
      (s.remain.toNat = 16 →
        (∀ p, PaddedBy X p → ∃ D : Block, D.toList = X.toList.take (16 - p) ++ List.replicate p 0 ∧
          exec .decBlock s = .next { s with
            chain := s.din, remain := 0, last := true, session := .idle, dout := D, outLen := BitVec.ofNat 5 (16 - p)
            errCode := .ok, busy := false, done := true }) ∧
        ((∀ p, ¬PaddedBy X p) → ∃ z : Block, (∀ i < 16, z.get i = 0) ∧
          exec .decBlock s = .next { s with
            chain := s.din, remain := 0, last := true, session := .idle, dout := z, outLen := 0
            errCode := .paddingValidationFailure, errSticky := true, busy := false, done := true })))

/-! ### Raw block commands (R91, R92) -/

/-- R91, R92: AES_ENC and AES_DEC where they exist, without and with a key; where they do not, their words are illegal. -/
def Obligations.RawBlockCommandsTransformDin : Prop :=
  ∀ s : State,
    (s.rawBlockOps = true → s.keyValid = false →
      exec .aesEnc s = .next { s with
        errCode := .invalidKeyMaterial, errSticky := true, busy := false, done := true } ∧
      exec .aesDec s = .next { s with
        errCode := .invalidKeyMaterial, errSticky := true, busy := false, done := true }) ∧
    (s.Inv → s.rawBlockOps = true → s.keyValid = true → ∃ K, s.LatchedKey K ∧
      exec .aesEnc s = .next { s with
        dout := aesEncrypt K s.din, outLen := 16, last := false, errCode := .ok, busy := false, done := true } ∧
      exec .aesDec s = .next { s with
        dout := aesDecrypt K s.din, outLen := 16, last := false, errCode := .ok, busy := false, done := true }) ∧
    (s.rawBlockOps = false →
      decode s.rawBlockOps 0x00000008 = .error .rawBlockOpsAbsent ∧
      decode s.rawBlockOps 0x00000009 = .error .rawBlockOpsAbsent)

/-! ### Rules about all commands (R21, R22, R29, R30, R119, R121, R135) -/

/-- R119: which commands are accepted in which session state, the code otherwise, and the session after. -/
def Obligations.CommandAcceptanceBySession : Prop :=
  ∀ s : State, s.Inv →
    (∃ t, exec .nop s = .next t ∧ t.errCode = .ok ∧ t.session = s.session) ∧
    (∃ t, exec .keyInit s = .next t ∧
      (s.keyBits ∈ [128, 192, 256] → t.errCode = .ok ∧ t.session = .idle) ∧
      (s.keyBits ∉ [128, 192, 256] → t.errCode = .unsupportedKeyLength ∧ t.session = s.session)) ∧
    (∃ t, exec .keyClear s = .next t ∧ t.errCode = .ok ∧ t.session = .idle) ∧
    (∃ t, exec .abort s = .next t ∧ t.errCode = .ok ∧ t.session = .idle) ∧
    (s.keyValid = true →
      (∃ t, exec .encStart s = .next t ∧ t.errCode = .ok ∧ t.session = .enc) ∧
      (0 < s.msgLen.toNat → s.msgLen.toNat % 16 = 0 →
        ∃ t, exec .decStart s = .next t ∧ t.errCode = .ok ∧ t.session = .dec) ∧
      (s.rawBlockOps = true → ∀ i, i = .aesEnc ∨ i = .aesDec →
        ∃ t, exec i s = .next t ∧ t.errCode = .ok ∧ t.session = s.session)) ∧
    (s.session = .enc → ∃ t, exec .encBlock s = .next t ∧ t.errCode = .ok ∧
      t.session = if s.remain.toNat < 16 then .idle else .enc) ∧
    (s.session ≠ .enc → ∃ t, exec .encBlock s = .next t ∧ t.errCode = .sequenceError ∧ t.session = s.session) ∧
    (s.session = .dec → ∃ t, exec .decBlock s = .next t ∧ (t.errCode = .ok ∨ t.errCode = .paddingValidationFailure) ∧
      t.session = if s.remain.toNat = 16 then .idle else .dec) ∧
    (s.session ≠ .dec → ∃ t, exec .decBlock s = .next t ∧ t.errCode = .sequenceError ∧ t.session = s.session) ∧
    (s.keyValid = false → s.session = .idle ∧ ∀ i, i = .encStart ∨ i = .decStart ∨
      (s.rawBlockOps = true ∧ (i = .aesEnc ∨ i = .aesDec)) →
      ∃ t, exec i s = .next t ∧ t.errCode = .invalidKeyMaterial ∧ t.session = .idle) ∧
    (s.busy = true → IllegalWord s.rawBlockOps s.pendCmd →
      ∃ t, engineMove s = .next t ∧ t.errCode = .illegalCommand ∧ t.session = s.session)

/-- R121: the codes as numbers, which command reports which, and under which condition; codes 2, 4, 6 and 10 to 15 are never
reported. The conditions exclude each other as R132 orders them. -/
def Obligations.EachCodeHasItsCommandAndCondition : Prop :=
  ∀ s t : State, s.busy = true → engineMove s = .next t →
    (t.errCode.code = 1 ↔ decode s.rawBlockOps s.pendCmd = .ok .keyInit ∧
      s.keyBits.toNat ≠ 128 ∧ s.keyBits.toNat ≠ 192 ∧ s.keyBits.toNat ≠ 256) ∧
    t.errCode.code ≠ 2 ∧
    (t.errCode.code = 3 ↔ s.keyValid = false ∧ ∃ i, decode s.rawBlockOps s.pendCmd = .ok i ∧
      (i = .encStart ∨ i = .decStart ∨ i = .aesEnc ∨ i = .aesDec)) ∧
    t.errCode.code ≠ 4 ∧
    (t.errCode.code = 5 ↔ decode s.rawBlockOps s.pendCmd = .ok .decStart ∧ s.keyValid = true ∧
      (s.msgLen.toNat = 0 ∨ s.msgLen.toNat % 16 ≠ 0)) ∧
    t.errCode.code ≠ 6 ∧
    (t.errCode.code = 7 ↔ decode s.rawBlockOps s.pendCmd = .ok .decBlock ∧ s.session = .dec ∧ s.remain.toNat = 16 ∧
      ∀ K, s.LatchedKey K → ∀ p, ¬PaddedBy ((aesDecrypt K s.din).xor s.chain) p) ∧
    (t.errCode.code = 8 ↔ IllegalWord s.rawBlockOps s.pendCmd) ∧
    (t.errCode.code = 9 ↔ (decode s.rawBlockOps s.pendCmd = .ok .encBlock ∧ s.session ≠ .enc) ∨
      (decode s.rawBlockOps s.pendCmd = .ok .decBlock ∧ s.session ≠ .dec)) ∧
    t.errCode.code.toNat < 10

/-- R29: what each command does to LAST, and that an illegal word leaves it. -/
def Obligations.LastMarksTheFinalBlock : Prop :=
  (∀ (i : Instr) (s t : State), exec i s = .next t →
    ((i = .encBlock ∧ s.session = .enc) → (t.last = true ↔ s.remain.toNat < 16)) ∧
    ((i = .decBlock ∧ s.session = .dec) → (t.last = true ↔ s.remain.toNat = 16)) ∧
    (t.errCode = .ok → i = .encStart ∨ i = .decStart ∨ i = .abort ∨ i = .aesEnc ∨ i = .aesDec → t.last = false) ∧
    (i = .nop ∨ i = .keyInit ∨ i = .keyClear ∨ (t.errCode ≠ .ok ∧ t.errCode ≠ .paddingValidationFailure) →
      t.last = s.last)) ∧
  (∀ s t : State, s.busy = true → IllegalWord s.rawBlockOps s.pendCmd → engineMove s = .next t → t.last = s.last)

/-- R30, R39: KLEN, KEY_VALID and KEY_LAT change only by a KEY_INIT that succeeds, by KEY_CLEAR and by reset, whatever the
move. -/
def Obligations.OnlyKeyCommandsAndResetChangeTheLatch : Prop :=
  ∀ s t : State, step s = .next t → (t.klen ≠ s.klen ∨ t.keyValid ≠ s.keyValid ∨ t.keyLat ≠ s.keyLat) →
    (s.busy = true ∧ (s.events = [] ∨ ∃ rest, s.events = .engine :: rest) ∧
      ((decode s.rawBlockOps s.pendCmd = .ok .keyInit ∧ t.errCode = .ok) ∨
        decode s.rawBlockOps s.pendCmd = .ok .keyClear)) ∨
    ∃ rest, s.events = .reset :: rest

/-- The frame of every command (R25, R31, R34 to R36, R40): none writes CONFIG, MSG_LEN, IV, DIN, WR_IGNORED or PEND_CMD, and none
but KEY_CLEAR writes KEY_IN. -/
def Obligations.CommandsNeverWriteTheHostsRegisters : Prop :=
  ∀ (i : Instr) (s t : State), exec i s = .next t →
    t.keyBits = s.keyBits ∧ t.irqEn = s.irqEn ∧ t.msgLen = s.msgLen ∧ t.iv = s.iv ∧ t.din = s.din ∧
    t.wrIgnored = s.wrIgnored ∧ t.pendCmd = s.pendCmd ∧ t.rawBlockOps = s.rawBlockOps ∧
    t.events = s.events ∧ t.resp = s.resp ∧ (i ≠ .keyClear → t.keyIn = s.keyIn)

/-- R21: a write of KEY0..KEY7 changes no command's result but KEY_INIT's. -/
def Obligations.KeyWritesReachOnlyKeyInit : Prop :=
  ∀ (i : Instr) (s t : State) (a : KeyBytes), i ≠ .keyInit → exec i s = .next t →
    ∃ b, exec i { s with keyIn := a } = .next { t with keyIn := b }

/-- R22: IV and MSG_LEN are read by the start commands only; a write of either changes nothing in an open session. -/
def Obligations.IvAndLengthReachOnlyStartCommands : Prop :=
  ∀ (i : Instr) (s t : State) (v : Block) (n : Word), i ≠ .encStart → i ≠ .decStart → exec i s = .next t →
    exec i { s with iv := v, msgLen := n } = .next { t with iv := v, msgLen := n }

/-! ### The cipher and whole sessions (R88, R98, R102, R104, R113 to R115) -/

/-- The inverse round transformations undo the round transformations, and are undone by them (R79, R82, R84). -/
def Obligations.InverseRoundTransformations : Prop :=
  ∀ s : Block,
    invSubBytes (subBytes s) = s ∧ subBytes (invSubBytes s) = s ∧
    invShiftRows (shiftRows s) = s ∧ shiftRows (invShiftRows s) = s ∧
    invMixColumns (mixColumns s) = s ∧ mixColumns (invMixColumns s) = s

/-- R88: under every key, AES_Decrypt and AES_Encrypt undo each other, so AES_Encrypt is a permutation of the blocks. -/
def Obligations.AesDecryptInvertsEncrypt : Prop :=
  ∀ (K : List Byte) (B : Block), K.length = 16 ∨ K.length = 24 ∨ K.length = 32 →
    aesDecrypt K (aesEncrypt K B) = B ∧ aesEncrypt K (aesDecrypt K B) = B

/-- R98: the ciphertext of a message of L bytes has `16 * (L div 16 + 1) = L + p` bytes: L rounded up to a multiple of 16 if L is none,
and L + 16 if it is one. -/
def Obligations.CiphertextLengthIsPaddedLength : Prop :=
  ∀ (K : List Byte) (V : Block) (M : List Byte),
    (bytesOf (encryptMessage K V M)).length = 16 * (M.length / 16 + 1) ∧
    (bytesOf (encryptMessage K V M)).length = M.length + (16 - M.length % 16) ∧
    (M.length % 16 ≠ 0 → (bytesOf (encryptMessage K V M)).length = 16 * ((M.length + 15) / 16)) ∧
    (M.length % 16 = 0 → (bytesOf (encryptMessage K V M)).length = M.length + 16)

/-- R104: two IVs give different first ciphertext blocks for the same key and message, the empty one too. -/
def Obligations.DifferentIvsGiveDifferentFirstBlocks : Prop :=
  ∀ (K : List Byte) (M : List Byte) (V₁ V₂ : Block), K.length = 16 ∨ K.length = 24 ∨ K.length = 32 → V₁ ≠ V₂ →
    (encryptMessage K V₁ M).head? ≠ (encryptMessage K V₂ M).head?

/-- R102: an encryption session computes the document's `encrypt(M, V, K)`, whatever the host leaves in DIN past the end of the
message; every command of it succeeds. The session is the one a host runs by its bus accesses. -/
def Obligations.EncryptionSessionComputesCbcOfPaddedMessage : Prop :=
  ∀ (s : State) (K : List Byte) (V : Block) (M : List Byte) (ds : List Block),
    s.keyValid = true → s.LatchedKey K → M.length < 2 ^ 32 → HoldMessage ds M →
    ∃ t ts, runSession .encStart .encBlock V M.length ds s = some (t, ts) ∧
      t.errCode = .ok ∧ ts.length = M.length / 16 + 1 ∧ (∀ u ∈ ts, u.errCode = .ok ∧ u.outLen = 16) ∧
      ts.map (·.dout) = encryptMessage K V M ∧
      (ts.getLastD s).session = .idle ∧ (ts.getLastD s).last = true ∧ (ts.getLastD s).remain = 0 ∧
      (ts.getLastD s).chain = (encryptMessage K V M).getLastD .zero ∧
      OnTheBus .encStart .encBlock V M.length ds s ts

/-- R113: a decryption session computes CBC_Dec block by block, and validates and strips the last block; what a successful one
outputs is the document's `decrypt(C, V, K)`, and it fails exactly where the document's does. The session is the one a host runs by its
bus accesses. -/
def Obligations.DecryptionSessionComputesDecrypt : Prop :=
  ∀ (s : State) (K : List Byte) (V : Block) (cs : List Block),
    s.keyValid = true → s.LatchedKey K → cs ≠ [] → 16 * cs.length < 2 ^ 32 →
    ∃ t ts, runSession .decStart .decBlock V (16 * cs.length) cs s = some (t, ts) ∧
      t.errCode = .ok ∧ ts.length = cs.length ∧
      (∀ i, i + 1 < cs.length → (ts.getD i s).errCode = .ok ∧ (ts.getD i s).outLen = 16 ∧
        (ts.getD i s).dout = (cbcDecrypt K V cs).getD i .zero) ∧
      (∀ p, PaddedBy ((cbcDecrypt K V cs).getLastD .zero) p →
        (ts.getLastD s).errCode = .ok ∧ (ts.getLastD s).outLen = BitVec.ofNat 5 (16 - p) ∧
        (ts.getLastD s).dout.toList =
          ((cbcDecrypt K V cs).getLastD .zero).toList.take (16 - p) ++ List.replicate p 0 ∧
        decryptMessage K V (bytesOf cs) = .ok (ts.flatMap (·.validOutput))) ∧
      ((∀ p, ¬PaddedBy ((cbcDecrypt K V cs).getLastD .zero) p) →
        (ts.getLastD s).errCode = .paddingValidationFailure ∧ (ts.getLastD s).outLen = 0 ∧
        (∀ i < 16, (ts.getLastD s).dout.get i = 0) ∧
        decryptMessage K V (bytesOf cs) = .error .paddingValidationFailure) ∧
      OnTheBus .decStart .decBlock V (16 * cs.length) cs s ts

/-- R114: the round trip. The document's `decrypt` undoes its `encrypt` for messages of every length; and a decryption session fed the
blocks that an encryption session put out, under the same key and IV, succeeds and outputs the message, when the ciphertext's
length fits MSG_LEN (R7). -/
def Obligations.RoundTripRecoversTheMessage : Prop :=
  (∀ (K : List Byte) (V : Block) (M : List Byte), K.length = 16 ∨ K.length = 24 ∨ K.length = 32 →
    decryptMessage K V (bytesOf (encryptMessage K V M)) = .ok M) ∧
  ∀ (s s' : State) (K : List Byte) (V : Block) (M : List Byte) (ds : List Block),
    s.keyValid = true → s.LatchedKey K → s'.keyValid = true → s'.LatchedKey K →
    16 * (M.length / 16 + 1) < 2 ^ 32 → HoldMessage ds M →
    ∃ t ts u us, runSession .encStart .encBlock V M.length ds s = some (t, ts) ∧
      runSession .decStart .decBlock V (16 * ts.length) (ts.map (·.dout)) s' = some (u, us) ∧
      (∀ w ∈ us, w.errCode = .ok) ∧ us.flatMap (·.validOutput) = M

/-- R115: decrypting a ciphertext of the same length that is not the message's fails with PaddingValidationFailure or gives
another message; so does the session that decrypts it, when the length fits MSG_LEN. -/
def Obligations.TamperedCiphertextIsNotTheMessage : Prop :=
  (∀ (K : List Byte) (V : Block) (M C' : List Byte), K.length = 16 ∨ K.length = 24 ∨ K.length = 32 →
    C'.length = (bytesOf (encryptMessage K V M)).length → C' ≠ bytesOf (encryptMessage K V M) →
    decryptMessage K V C' = .error .paddingValidationFailure ∨
      ∃ M', decryptMessage K V C' = .ok M' ∧ M' ≠ M) ∧
  ∀ (s : State) (K : List Byte) (V : Block) (M : List Byte) (cs : List Block),
    s.keyValid = true → s.LatchedKey K → 16 * cs.length < 2 ^ 32 →
    cs.length = (encryptMessage K V M).length → cs ≠ encryptMessage K V M →
    ∃ t ts, runSession .decStart .decBlock V (16 * cs.length) cs s = some (t, ts) ∧
      ((ts.getLastD s).errCode = .paddingValidationFailure ∨ ts.flatMap (·.validOutput) ≠ M)
end

