-- ==== Sys2Proof/Laws/Bytes.lean ====
section
/-! SUPPORT. Byte strings: what indexing, building, replacing and the register lanes do. -/

namespace Sys2Proof

/-- Bit `i` of the word of four bytes is bit `i mod 8` of byte `i div 8` (R45). -/
theorem toWord_getLsbD (q : Quad) (i : Nat) : q.toWord.getLsbD i =
    if i < 8 then q.b0.getLsbD i else if i < 16 then q.b1.getLsbD (i - 8)
    else if i < 24 then q.b2.getLsbD (i - 16) else q.b3.getLsbD (i - 24) := by
  change BitVec.getLsbD (w := 8 + 8 + 8 + 8) (q.b3 ++ q.b2 ++ q.b1 ++ q.b0) i = _
  simp only [BitVec.getLsbD_append, Nat.sub_sub]
  split <;> [rfl; split] <;> split <;> (try split) <;> (try split) <;> first | rfl | omega

@[simp] theorem quadOfWord_toWord (q : Quad) : quadOfWord q.toWord = q := by
  ext i hi <;>
    · simp only [quadOfWord, BitVec.getElem_extractLsb', toWord_getLsbD]
      rw [← BitVec.getLsbD_eq_getElem]
      split_ifs <;> first | omega | (congr 1; omega)

/-- Lane `j` of the word of four bytes is byte `j` (R45). -/
theorem toWord_lane (q : Quad) {j : Nat} (hj : j < 4) : q.toWord.extractLsb' (8 * j) 8 = q.get j := by
  have h := congrArg (fun r : Quad => r.get j) (quadOfWord_toWord q)
  match j, hj with
  | 0, _ => exact h
  | 1, _ => exact h
  | 2, _ => exact h
  | 3, _ => exact h

/-- Byte `j` of a word's lanes is bits `[8j+7 : 8j]` (R45). -/
theorem quadOfWord_get (w : Word) {j : Nat} (hj : j < 4) : (quadOfWord w).get j = w.extractLsb' (8 * j) 8 := by
  match j, hj with
  | 0, _ => rfl
  | 1, _ => rfl
  | 2, _ => rfl
  | 3, _ => rfl

@[simp] theorem Block.get_ofFn (f : Nat → Byte) {i : Nat} (hi : i < 16) : (Block.ofFn f).get i = f i := by
  interval_cases i <;> rfl

/-- Two blocks with the same bytes are equal. -/
theorem Block.eq_of_get {a b : Block} (h : ∀ i < 16, a.get i = b.get i) : a = b := by
  have e (c : Block) : c = Block.ofFn c.get := rfl
  rw [e a, e b]
  simp only [Block.ofFn, h 0 (by omega), h 1 (by omega), h 2 (by omega), h 3 (by omega), h 4 (by omega),
    h 5 (by omega), h 6 (by omega), h 7 (by omega), h 8 (by omega), h 9 (by omega), h 10 (by omega),
    h 11 (by omega), h 12 (by omega), h 13 (by omega), h 14 (by omega), h 15 (by omega)]

@[simp] theorem Block.toList_length (b : Block) : b.toList.length = 16 := rfl

@[simp] theorem Block.toList_getElem (b : Block) {i : Nat} (hi : i < b.toList.length) : b.toList[i] = b.get i := by
  have : i < 16 := hi
  interval_cases i <;> rfl

/-- Two blocks with the same byte string are equal. -/
theorem Block.toList_injective {a b : Block} (h : a.toList = b.toList) : a = b := by
  obtain ⟨⟨_, _, _, _⟩, ⟨_, _, _, _⟩, ⟨_, _, _, _⟩, ⟨_, _, _, _⟩⟩ := a
  obtain ⟨⟨_, _, _, _⟩, ⟨_, _, _, _⟩, ⟨_, _, _, _⟩, ⟨_, _, _, _⟩⟩ := b
  simpa [Block.toList, Quad.toList, and_assoc] using h

@[simp] theorem Block.zero_get (i : Nat) : Block.zero.get i = 0 := by
  unfold Block.get Block.quad Quad.get
  split <;> split <;> rfl

@[simp] theorem KeyBytes.toList_length (b : KeyBytes) : b.toList.length = 32 := rfl

@[simp] theorem KeyBytes.toList_getElem (b : KeyBytes) {i : Nat} (hi : i < b.toList.length) : b.toList[i] = b.get i := by
  have : i < 32 := hi
  interval_cases i <;> rfl

@[simp] theorem KeyBytes.zero_get (i : Nat) : KeyBytes.zero.get i = 0 := by
  unfold KeyBytes.get KeyBytes.quad Quad.get
  split <;> split <;> rfl

/-- The first `4 n` bytes are kept and the others are zero (R93). -/
theorem KeyBytes.keepQuads_get (b : KeyBytes) (n : Nat) {i : Nat} (hi : i < 32) :
    (b.keepQuads n).get i = if i / 4 < n then b.get i else 0 := by
  interval_cases i <;> simp [KeyBytes.keepQuads, KeyBytes.get, KeyBytes.quad] <;> split <;> simp_all <;> rfl

/-- Replacing word `k` replaces bytes `4k` to `4k + 3`. -/
theorem Block.setQuad_get (b : Block) (q : Quad) {k i : Nat} (hk : k < 4) (hi : i < 16) :
    (b.setQuad k q).get i = if i / 4 = k then q.get (i % 4) else b.get i := by
  interval_cases k <;> interval_cases i <;> rfl

/-- Replacing word `k` replaces bytes `4k` to `4k + 3`. -/
theorem KeyBytes.setQuad_get (b : KeyBytes) (q : Quad) {k i : Nat} (hk : k < 8) (hi : i < 32) :
    (b.setQuad k q).get i = if i / 4 = k then q.get (i % 4) else b.get i := by
  interval_cases k <;> interval_cases i <;> rfl

theorem Quad.xor_comm (a b : Quad) : a.xor b = b.xor a := by
  simp [Quad.xor, BitVec.xor_comm]

@[simp] theorem Quad.xor_cancel (a b : Quad) : (a.xor b).xor b = a := by
  simp [Quad.xor]

theorem Block.xor_comm (a b : Block) : a.xor b = b.xor a := by
  simp [Block.xor, Quad.xor_comm]

/-- Exclusive or with the same block twice changes nothing (R85). -/
@[simp] theorem Block.xor_cancel (a b : Block) : (a.xor b).xor b = a := by
  simp [Block.xor]

theorem Block.xor_right_injective {a b c : Block} (h : a.xor c = b.xor c) : a = b := by
  rw [← Block.xor_cancel a c, h, Block.xor_cancel]

end Sys2Proof
end

