-- ==== Sys2Proof/Laws/Aes.lean ====
section
/-! SUPPORT. The AES tables checked against their definition, and small facts about the round functions. -/

namespace Sys2Proof.Machine

/-- INV_SBOX(SBOX(b)) = b (R79). -/
@[simp] theorem invSbox_sbox (b : Byte) : invSbox (sbox b) = b := by
  revert b; decide +kernel

/-- SBOX(INV_SBOX(b)) = b (R79). -/
@[simp] theorem sbox_invSbox (b : Byte) : sbox (invSbox b) = b := by
  revert b; decide +kernel

/-- `gmul` by a fixed byte distributes over exclusive or (R73, R74). -/
theorem gmul_xor_right (a x y : Byte) : gmul a (x ^^^ y) = gmul a x ^^^ gmul a y := by
  have loop (x y : Byte) (n : Nat) :
      ∀ i a r₁ r₂, gmulFrom (x ^^^ y) n i a (r₁ ^^^ r₂) = gmulFrom x n i a r₁ ^^^ gmulFrom y n i a r₂ := by
    induction n with
    | zero => intros; rfl
    | succ n ih =>
      intro i a r₁ r₂
      simp only [gmulFrom, BitVec.getLsbD_xor]
      rw [← ih]
      congr 1
      apply BitVec.eq_of_getLsbD_eq
      intro j _
      cases x.getLsbD i <;> cases y.getLsbD i <;>
        simp [-BitVec.getLsbD_eq_getElem] <;>
        cases a.getLsbD j <;> cases r₁.getLsbD j <;> cases r₂.getLsbD j <;> rfl
  simpa [gmul] using loop x y 8 0 a 0 0

/-- AddRoundKey is its own inverse (R85). -/
@[simp] theorem addRoundKey_addRoundKey (ws : List Quad) (r : Nat) (s : Block) :
    addRoundKey ws r (addRoundKey ws r s) = s := Block.xor_cancel _ _

end Sys2Proof.Machine
end

