-- ==== Sys2Proof/Laws/State.lean ====
section
/-! SUPPORT. What each named update of the state leaves in each field: one lemma a field, true by unfolding, so that no later
proof unfolds a record update. -/

namespace Sys2Proof.Machine

section

/-! ### `completion`: the completion fields (R67) -/

@[simp] theorem completion_keyBits (e : ErrCode) (s : State) :
    (completion e s).keyBits = s.keyBits := rfl
@[simp] theorem completion_irqEn (e : ErrCode) (s : State) :
    (completion e s).irqEn = s.irqEn := rfl
@[simp] theorem completion_msgLen (e : ErrCode) (s : State) :
    (completion e s).msgLen = s.msgLen := rfl
@[simp] theorem completion_remain (e : ErrCode) (s : State) :
    (completion e s).remain = s.remain := rfl
@[simp] theorem completion_busy (e : ErrCode) (s : State) :
    (completion e s).busy = false := rfl
@[simp] theorem completion_done (e : ErrCode) (s : State) :
    (completion e s).done = true := rfl
@[simp] theorem completion_keyValid (e : ErrCode) (s : State) :
    (completion e s).keyValid = s.keyValid := rfl
@[simp] theorem completion_session (e : ErrCode) (s : State) :
    (completion e s).session = s.session := rfl
@[simp] theorem completion_last (e : ErrCode) (s : State) :
    (completion e s).last = s.last := rfl
@[simp] theorem completion_errSticky (e : ErrCode) (s : State) :
    (completion e s).errSticky = (s.errSticky || decide (e ≠ .ok)) := rfl
@[simp] theorem completion_wrIgnored (e : ErrCode) (s : State) :
    (completion e s).wrIgnored = s.wrIgnored := rfl
@[simp] theorem completion_outLen (e : ErrCode) (s : State) :
    (completion e s).outLen = s.outLen := rfl
@[simp] theorem completion_errCode (e : ErrCode) (s : State) :
    (completion e s).errCode = e := rfl
@[simp] theorem completion_klen (e : ErrCode) (s : State) :
    (completion e s).klen = s.klen := rfl
@[simp] theorem completion_keyIn (e : ErrCode) (s : State) :
    (completion e s).keyIn = s.keyIn := rfl
@[simp] theorem completion_iv (e : ErrCode) (s : State) :
    (completion e s).iv = s.iv := rfl
@[simp] theorem completion_din (e : ErrCode) (s : State) :
    (completion e s).din = s.din := rfl
@[simp] theorem completion_dout (e : ErrCode) (s : State) :
    (completion e s).dout = s.dout := rfl
@[simp] theorem completion_chain (e : ErrCode) (s : State) :
    (completion e s).chain = s.chain := rfl
@[simp] theorem completion_keyLat (e : ErrCode) (s : State) :
    (completion e s).keyLat = s.keyLat := rfl
@[simp] theorem completion_pendCmd (e : ErrCode) (s : State) :
    (completion e s).pendCmd = s.pendCmd := rfl
@[simp] theorem completion_rawBlockOps (e : ErrCode) (s : State) :
    (completion e s).rawBlockOps = s.rawBlockOps := rfl
@[simp] theorem completion_events (e : ErrCode) (s : State) :
    (completion e s).events = s.events := rfl
@[simp] theorem completion_resp (e : ErrCode) (s : State) :
    (completion e s).resp = s.resp := rfl

end

section

/-! ### `endSession`: the end of a session (R28) -/

@[simp] theorem endSession_keyBits (s : State) :
    (endSession s).keyBits = s.keyBits := rfl
@[simp] theorem endSession_irqEn (s : State) :
    (endSession s).irqEn = s.irqEn := rfl
@[simp] theorem endSession_msgLen (s : State) :
    (endSession s).msgLen = s.msgLen := rfl
@[simp] theorem endSession_remain (s : State) :
    (endSession s).remain = 0 := rfl
@[simp] theorem endSession_busy (s : State) :
    (endSession s).busy = s.busy := rfl
@[simp] theorem endSession_done (s : State) :
    (endSession s).done = s.done := rfl
@[simp] theorem endSession_keyValid (s : State) :
    (endSession s).keyValid = s.keyValid := rfl
@[simp] theorem endSession_session (s : State) :
    (endSession s).session = .idle := rfl
@[simp] theorem endSession_last (s : State) :
    (endSession s).last = s.last := rfl
@[simp] theorem endSession_errSticky (s : State) :
    (endSession s).errSticky = s.errSticky := rfl
@[simp] theorem endSession_wrIgnored (s : State) :
    (endSession s).wrIgnored = s.wrIgnored := rfl
@[simp] theorem endSession_outLen (s : State) :
    (endSession s).outLen = s.outLen := rfl
@[simp] theorem endSession_errCode (s : State) :
    (endSession s).errCode = s.errCode := rfl
@[simp] theorem endSession_klen (s : State) :
    (endSession s).klen = s.klen := rfl
@[simp] theorem endSession_keyIn (s : State) :
    (endSession s).keyIn = s.keyIn := rfl
@[simp] theorem endSession_iv (s : State) :
    (endSession s).iv = s.iv := rfl
@[simp] theorem endSession_din (s : State) :
    (endSession s).din = s.din := rfl
@[simp] theorem endSession_dout (s : State) :
    (endSession s).dout = s.dout := rfl
@[simp] theorem endSession_chain (s : State) :
    (endSession s).chain = s.chain := rfl
@[simp] theorem endSession_keyLat (s : State) :
    (endSession s).keyLat = s.keyLat := rfl
@[simp] theorem endSession_pendCmd (s : State) :
    (endSession s).pendCmd = s.pendCmd := rfl
@[simp] theorem endSession_rawBlockOps (s : State) :
    (endSession s).rawBlockOps = s.rawBlockOps := rfl
@[simp] theorem endSession_events (s : State) :
    (endSession s).events = s.events := rfl
@[simp] theorem endSession_resp (s : State) :
    (endSession s).resp = s.resp := rfl

end

section

/-! ### `openSession`: the opening of a session (R100, R110) -/

@[simp] theorem openSession_keyBits (k : Session) (s : State) :
    (openSession k s).keyBits = s.keyBits := rfl
@[simp] theorem openSession_irqEn (k : Session) (s : State) :
    (openSession k s).irqEn = s.irqEn := rfl
@[simp] theorem openSession_msgLen (k : Session) (s : State) :
    (openSession k s).msgLen = s.msgLen := rfl
@[simp] theorem openSession_remain (k : Session) (s : State) :
    (openSession k s).remain = s.msgLen := rfl
@[simp] theorem openSession_busy (k : Session) (s : State) :
    (openSession k s).busy = s.busy := rfl
@[simp] theorem openSession_done (k : Session) (s : State) :
    (openSession k s).done = s.done := rfl
@[simp] theorem openSession_keyValid (k : Session) (s : State) :
    (openSession k s).keyValid = s.keyValid := rfl
@[simp] theorem openSession_session (k : Session) (s : State) :
    (openSession k s).session = k := rfl
@[simp] theorem openSession_last (k : Session) (s : State) :
    (openSession k s).last = false := rfl
@[simp] theorem openSession_errSticky (k : Session) (s : State) :
    (openSession k s).errSticky = s.errSticky := rfl
@[simp] theorem openSession_wrIgnored (k : Session) (s : State) :
    (openSession k s).wrIgnored = s.wrIgnored := rfl
@[simp] theorem openSession_outLen (k : Session) (s : State) :
    (openSession k s).outLen = 0 := rfl
@[simp] theorem openSession_errCode (k : Session) (s : State) :
    (openSession k s).errCode = s.errCode := rfl
@[simp] theorem openSession_klen (k : Session) (s : State) :
    (openSession k s).klen = s.klen := rfl
@[simp] theorem openSession_keyIn (k : Session) (s : State) :
    (openSession k s).keyIn = s.keyIn := rfl
@[simp] theorem openSession_iv (k : Session) (s : State) :
    (openSession k s).iv = s.iv := rfl
@[simp] theorem openSession_din (k : Session) (s : State) :
    (openSession k s).din = s.din := rfl
@[simp] theorem openSession_dout (k : Session) (s : State) :
    (openSession k s).dout = .zero := rfl
@[simp] theorem openSession_chain (k : Session) (s : State) :
    (openSession k s).chain = s.iv := rfl
@[simp] theorem openSession_keyLat (k : Session) (s : State) :
    (openSession k s).keyLat = s.keyLat := rfl
@[simp] theorem openSession_pendCmd (k : Session) (s : State) :
    (openSession k s).pendCmd = s.pendCmd := rfl
@[simp] theorem openSession_rawBlockOps (k : Session) (s : State) :
    (openSession k s).rawBlockOps = s.rawBlockOps := rfl
@[simp] theorem openSession_events (k : Session) (s : State) :
    (openSession k s).events = s.events := rfl
@[simp] theorem openSession_resp (k : Session) (s : State) :
    (openSession k s).resp = s.resp := rfl

end

section

/-! ### `rawOutput`: the output of a raw block command (R91, R92) -/

@[simp] theorem rawOutput_keyBits (b : Block) (s : State) :
    (rawOutput b s).keyBits = s.keyBits := rfl
@[simp] theorem rawOutput_irqEn (b : Block) (s : State) :
    (rawOutput b s).irqEn = s.irqEn := rfl
@[simp] theorem rawOutput_msgLen (b : Block) (s : State) :
    (rawOutput b s).msgLen = s.msgLen := rfl
@[simp] theorem rawOutput_remain (b : Block) (s : State) :
    (rawOutput b s).remain = s.remain := rfl
@[simp] theorem rawOutput_busy (b : Block) (s : State) :
    (rawOutput b s).busy = s.busy := rfl
@[simp] theorem rawOutput_done (b : Block) (s : State) :
    (rawOutput b s).done = s.done := rfl
@[simp] theorem rawOutput_keyValid (b : Block) (s : State) :
    (rawOutput b s).keyValid = s.keyValid := rfl
@[simp] theorem rawOutput_session (b : Block) (s : State) :
    (rawOutput b s).session = s.session := rfl
@[simp] theorem rawOutput_last (b : Block) (s : State) :
    (rawOutput b s).last = false := rfl
@[simp] theorem rawOutput_errSticky (b : Block) (s : State) :
    (rawOutput b s).errSticky = s.errSticky := rfl
@[simp] theorem rawOutput_wrIgnored (b : Block) (s : State) :
    (rawOutput b s).wrIgnored = s.wrIgnored := rfl
@[simp] theorem rawOutput_outLen (b : Block) (s : State) :
    (rawOutput b s).outLen = 16 := rfl
@[simp] theorem rawOutput_errCode (b : Block) (s : State) :
    (rawOutput b s).errCode = s.errCode := rfl
@[simp] theorem rawOutput_klen (b : Block) (s : State) :
    (rawOutput b s).klen = s.klen := rfl
@[simp] theorem rawOutput_keyIn (b : Block) (s : State) :
    (rawOutput b s).keyIn = s.keyIn := rfl
@[simp] theorem rawOutput_iv (b : Block) (s : State) :
    (rawOutput b s).iv = s.iv := rfl
@[simp] theorem rawOutput_din (b : Block) (s : State) :
    (rawOutput b s).din = s.din := rfl
@[simp] theorem rawOutput_dout (b : Block) (s : State) :
    (rawOutput b s).dout = b := rfl
@[simp] theorem rawOutput_chain (b : Block) (s : State) :
    (rawOutput b s).chain = s.chain := rfl
@[simp] theorem rawOutput_keyLat (b : Block) (s : State) :
    (rawOutput b s).keyLat = s.keyLat := rfl
@[simp] theorem rawOutput_pendCmd (b : Block) (s : State) :
    (rawOutput b s).pendCmd = s.pendCmd := rfl
@[simp] theorem rawOutput_rawBlockOps (b : Block) (s : State) :
    (rawOutput b s).rawBlockOps = s.rawBlockOps := rfl
@[simp] theorem rawOutput_events (b : Block) (s : State) :
    (rawOutput b s).events = s.events := rfl
@[simp] theorem rawOutput_resp (b : Block) (s : State) :
    (rawOutput b s).resp = s.resp := rfl

end

section

/-! ### `dropWrite`: a dropped write (R149) -/

@[simp] theorem dropWrite_keyBits (s : State) :
    (dropWrite s).keyBits = s.keyBits := rfl
@[simp] theorem dropWrite_irqEn (s : State) :
    (dropWrite s).irqEn = s.irqEn := rfl
@[simp] theorem dropWrite_msgLen (s : State) :
    (dropWrite s).msgLen = s.msgLen := rfl
@[simp] theorem dropWrite_remain (s : State) :
    (dropWrite s).remain = s.remain := rfl
@[simp] theorem dropWrite_busy (s : State) :
    (dropWrite s).busy = s.busy := rfl
@[simp] theorem dropWrite_done (s : State) :
    (dropWrite s).done = s.done := rfl
@[simp] theorem dropWrite_keyValid (s : State) :
    (dropWrite s).keyValid = s.keyValid := rfl
@[simp] theorem dropWrite_session (s : State) :
    (dropWrite s).session = s.session := rfl
@[simp] theorem dropWrite_last (s : State) :
    (dropWrite s).last = s.last := rfl
@[simp] theorem dropWrite_errSticky (s : State) :
    (dropWrite s).errSticky = s.errSticky := rfl
@[simp] theorem dropWrite_wrIgnored (s : State) :
    (dropWrite s).wrIgnored = true := rfl
@[simp] theorem dropWrite_outLen (s : State) :
    (dropWrite s).outLen = s.outLen := rfl
@[simp] theorem dropWrite_errCode (s : State) :
    (dropWrite s).errCode = s.errCode := rfl
@[simp] theorem dropWrite_klen (s : State) :
    (dropWrite s).klen = s.klen := rfl
@[simp] theorem dropWrite_keyIn (s : State) :
    (dropWrite s).keyIn = s.keyIn := rfl
@[simp] theorem dropWrite_iv (s : State) :
    (dropWrite s).iv = s.iv := rfl
@[simp] theorem dropWrite_din (s : State) :
    (dropWrite s).din = s.din := rfl
@[simp] theorem dropWrite_dout (s : State) :
    (dropWrite s).dout = s.dout := rfl
@[simp] theorem dropWrite_chain (s : State) :
    (dropWrite s).chain = s.chain := rfl
@[simp] theorem dropWrite_keyLat (s : State) :
    (dropWrite s).keyLat = s.keyLat := rfl
@[simp] theorem dropWrite_pendCmd (s : State) :
    (dropWrite s).pendCmd = s.pendCmd := rfl
@[simp] theorem dropWrite_rawBlockOps (s : State) :
    (dropWrite s).rawBlockOps = s.rawBlockOps := rfl
@[simp] theorem dropWrite_events (s : State) :
    (dropWrite s).events = s.events := rfl
@[simp] theorem dropWrite_resp (s : State) :
    (dropWrite s).resp = s.resp := rfl

end

section

/-! ### `writeConfig`: a write of CONFIG (R53) -/

@[simp] theorem writeConfig_keyBits (v : Word) (s : State) :
    (writeConfig v s).keyBits = v.extractLsb' 0 16 := rfl
@[simp] theorem writeConfig_irqEn (v : Word) (s : State) :
    (writeConfig v s).irqEn = v.getLsbD 16 := rfl
@[simp] theorem writeConfig_msgLen (v : Word) (s : State) :
    (writeConfig v s).msgLen = s.msgLen := rfl
@[simp] theorem writeConfig_remain (v : Word) (s : State) :
    (writeConfig v s).remain = s.remain := rfl
@[simp] theorem writeConfig_busy (v : Word) (s : State) :
    (writeConfig v s).busy = s.busy := rfl
@[simp] theorem writeConfig_done (v : Word) (s : State) :
    (writeConfig v s).done = s.done := rfl
@[simp] theorem writeConfig_keyValid (v : Word) (s : State) :
    (writeConfig v s).keyValid = s.keyValid := rfl
@[simp] theorem writeConfig_session (v : Word) (s : State) :
    (writeConfig v s).session = s.session := rfl
@[simp] theorem writeConfig_last (v : Word) (s : State) :
    (writeConfig v s).last = s.last := rfl
@[simp] theorem writeConfig_errSticky (v : Word) (s : State) :
    (writeConfig v s).errSticky = s.errSticky := rfl
@[simp] theorem writeConfig_wrIgnored (v : Word) (s : State) :
    (writeConfig v s).wrIgnored = s.wrIgnored := rfl
@[simp] theorem writeConfig_outLen (v : Word) (s : State) :
    (writeConfig v s).outLen = s.outLen := rfl
@[simp] theorem writeConfig_errCode (v : Word) (s : State) :
    (writeConfig v s).errCode = s.errCode := rfl
@[simp] theorem writeConfig_klen (v : Word) (s : State) :
    (writeConfig v s).klen = s.klen := rfl
@[simp] theorem writeConfig_keyIn (v : Word) (s : State) :
    (writeConfig v s).keyIn = s.keyIn := rfl
@[simp] theorem writeConfig_iv (v : Word) (s : State) :
    (writeConfig v s).iv = s.iv := rfl
@[simp] theorem writeConfig_din (v : Word) (s : State) :
    (writeConfig v s).din = s.din := rfl
@[simp] theorem writeConfig_dout (v : Word) (s : State) :
    (writeConfig v s).dout = s.dout := rfl
@[simp] theorem writeConfig_chain (v : Word) (s : State) :
    (writeConfig v s).chain = s.chain := rfl
@[simp] theorem writeConfig_keyLat (v : Word) (s : State) :
    (writeConfig v s).keyLat = s.keyLat := rfl
@[simp] theorem writeConfig_pendCmd (v : Word) (s : State) :
    (writeConfig v s).pendCmd = s.pendCmd := rfl
@[simp] theorem writeConfig_rawBlockOps (v : Word) (s : State) :
    (writeConfig v s).rawBlockOps = s.rawBlockOps := rfl
@[simp] theorem writeConfig_events (v : Word) (s : State) :
    (writeConfig v s).events = s.events := rfl
@[simp] theorem writeConfig_resp (v : Word) (s : State) :
    (writeConfig v s).resp = s.resp := rfl

end

section

/-! ### `writeStatus`: a write of STATUS (R53) -/

@[simp] theorem writeStatus_keyBits (v : Word) (s : State) :
    (writeStatus v s).keyBits = s.keyBits := rfl
@[simp] theorem writeStatus_irqEn (v : Word) (s : State) :
    (writeStatus v s).irqEn = s.irqEn := rfl
@[simp] theorem writeStatus_msgLen (v : Word) (s : State) :
    (writeStatus v s).msgLen = s.msgLen := rfl
@[simp] theorem writeStatus_remain (v : Word) (s : State) :
    (writeStatus v s).remain = s.remain := rfl
@[simp] theorem writeStatus_busy (v : Word) (s : State) :
    (writeStatus v s).busy = s.busy := rfl
@[simp] theorem writeStatus_done (v : Word) (s : State) :
    (writeStatus v s).done = (s.done && !v.getLsbD 1) := rfl
@[simp] theorem writeStatus_keyValid (v : Word) (s : State) :
    (writeStatus v s).keyValid = s.keyValid := rfl
@[simp] theorem writeStatus_session (v : Word) (s : State) :
    (writeStatus v s).session = s.session := rfl
@[simp] theorem writeStatus_last (v : Word) (s : State) :
    (writeStatus v s).last = s.last := rfl
@[simp] theorem writeStatus_errSticky (v : Word) (s : State) :
    (writeStatus v s).errSticky = (s.errSticky && !v.getLsbD 6) := rfl
@[simp] theorem writeStatus_wrIgnored (v : Word) (s : State) :
    (writeStatus v s).wrIgnored = (s.wrIgnored && !v.getLsbD 7) := rfl
@[simp] theorem writeStatus_outLen (v : Word) (s : State) :
    (writeStatus v s).outLen = s.outLen := rfl
@[simp] theorem writeStatus_errCode (v : Word) (s : State) :
    (writeStatus v s).errCode = s.errCode := rfl
@[simp] theorem writeStatus_klen (v : Word) (s : State) :
    (writeStatus v s).klen = s.klen := rfl
@[simp] theorem writeStatus_keyIn (v : Word) (s : State) :
    (writeStatus v s).keyIn = s.keyIn := rfl
@[simp] theorem writeStatus_iv (v : Word) (s : State) :
    (writeStatus v s).iv = s.iv := rfl
@[simp] theorem writeStatus_din (v : Word) (s : State) :
    (writeStatus v s).din = s.din := rfl
@[simp] theorem writeStatus_dout (v : Word) (s : State) :
    (writeStatus v s).dout = s.dout := rfl
@[simp] theorem writeStatus_chain (v : Word) (s : State) :
    (writeStatus v s).chain = s.chain := rfl
@[simp] theorem writeStatus_keyLat (v : Word) (s : State) :
    (writeStatus v s).keyLat = s.keyLat := rfl
@[simp] theorem writeStatus_pendCmd (v : Word) (s : State) :
    (writeStatus v s).pendCmd = s.pendCmd := rfl
@[simp] theorem writeStatus_rawBlockOps (v : Word) (s : State) :
    (writeStatus v s).rawBlockOps = s.rawBlockOps := rfl
@[simp] theorem writeStatus_events (v : Word) (s : State) :
    (writeStatus v s).events = s.events := rfl
@[simp] theorem writeStatus_resp (v : Word) (s : State) :
    (writeStatus v s).resp = s.resp := rfl

end

section

/-! ### `fetchWord`: a command made pending (log 14) -/

@[simp] theorem fetchWord_keyBits (nbits w : Nat) (s : State) :
    (fetchWord nbits w s).keyBits = s.keyBits := rfl
@[simp] theorem fetchWord_irqEn (nbits w : Nat) (s : State) :
    (fetchWord nbits w s).irqEn = s.irqEn := rfl
@[simp] theorem fetchWord_msgLen (nbits w : Nat) (s : State) :
    (fetchWord nbits w s).msgLen = s.msgLen := rfl
@[simp] theorem fetchWord_remain (nbits w : Nat) (s : State) :
    (fetchWord nbits w s).remain = s.remain := rfl
@[simp] theorem fetchWord_busy (nbits w : Nat) (s : State) :
    (fetchWord nbits w s).busy = true := rfl
@[simp] theorem fetchWord_done (nbits w : Nat) (s : State) :
    (fetchWord nbits w s).done = false := rfl
@[simp] theorem fetchWord_keyValid (nbits w : Nat) (s : State) :
    (fetchWord nbits w s).keyValid = s.keyValid := rfl
@[simp] theorem fetchWord_session (nbits w : Nat) (s : State) :
    (fetchWord nbits w s).session = s.session := rfl
@[simp] theorem fetchWord_last (nbits w : Nat) (s : State) :
    (fetchWord nbits w s).last = s.last := rfl
@[simp] theorem fetchWord_errSticky (nbits w : Nat) (s : State) :
    (fetchWord nbits w s).errSticky = s.errSticky := rfl
@[simp] theorem fetchWord_wrIgnored (nbits w : Nat) (s : State) :
    (fetchWord nbits w s).wrIgnored = s.wrIgnored := rfl
@[simp] theorem fetchWord_outLen (nbits w : Nat) (s : State) :
    (fetchWord nbits w s).outLen = s.outLen := rfl
@[simp] theorem fetchWord_errCode (nbits w : Nat) (s : State) :
    (fetchWord nbits w s).errCode = s.errCode := rfl
@[simp] theorem fetchWord_klen (nbits w : Nat) (s : State) :
    (fetchWord nbits w s).klen = s.klen := rfl
@[simp] theorem fetchWord_keyIn (nbits w : Nat) (s : State) :
    (fetchWord nbits w s).keyIn = s.keyIn := rfl
@[simp] theorem fetchWord_iv (nbits w : Nat) (s : State) :
    (fetchWord nbits w s).iv = s.iv := rfl
@[simp] theorem fetchWord_din (nbits w : Nat) (s : State) :
    (fetchWord nbits w s).din = s.din := rfl
@[simp] theorem fetchWord_dout (nbits w : Nat) (s : State) :
    (fetchWord nbits w s).dout = s.dout := rfl
@[simp] theorem fetchWord_chain (nbits w : Nat) (s : State) :
    (fetchWord nbits w s).chain = s.chain := rfl
@[simp] theorem fetchWord_keyLat (nbits w : Nat) (s : State) :
    (fetchWord nbits w s).keyLat = s.keyLat := rfl
@[simp] theorem fetchWord_pendCmd (nbits w : Nat) (s : State) :
    (fetchWord nbits w s).pendCmd = BitVec.ofNat 32 (w % 2 ^ nbits) := rfl
@[simp] theorem fetchWord_rawBlockOps (nbits w : Nat) (s : State) :
    (fetchWord nbits w s).rawBlockOps = s.rawBlockOps := rfl
@[simp] theorem fetchWord_events (nbits w : Nat) (s : State) :
    (fetchWord nbits w s).events = .engine :: s.events := rfl
@[simp] theorem fetchWord_resp (nbits w : Nat) (s : State) :
    (fetchWord nbits w s).resp = s.resp := rfl

end

section

/-! ### `resetCore`: the reset move (R143) -/

@[simp] theorem resetCore_keyBits (s : State) : (resetCore s).keyBits = State.reset.keyBits := rfl
@[simp] theorem resetCore_irqEn (s : State) : (resetCore s).irqEn = State.reset.irqEn := rfl
@[simp] theorem resetCore_msgLen (s : State) : (resetCore s).msgLen = State.reset.msgLen := rfl
@[simp] theorem resetCore_remain (s : State) : (resetCore s).remain = State.reset.remain := rfl
@[simp] theorem resetCore_busy (s : State) : (resetCore s).busy = State.reset.busy := rfl
@[simp] theorem resetCore_done (s : State) : (resetCore s).done = State.reset.done := rfl
@[simp] theorem resetCore_keyValid (s : State) : (resetCore s).keyValid = State.reset.keyValid := rfl
@[simp] theorem resetCore_session (s : State) : (resetCore s).session = State.reset.session := rfl
@[simp] theorem resetCore_last (s : State) : (resetCore s).last = State.reset.last := rfl
@[simp] theorem resetCore_errSticky (s : State) : (resetCore s).errSticky = State.reset.errSticky := rfl
@[simp] theorem resetCore_wrIgnored (s : State) : (resetCore s).wrIgnored = State.reset.wrIgnored := rfl
@[simp] theorem resetCore_outLen (s : State) : (resetCore s).outLen = State.reset.outLen := rfl
@[simp] theorem resetCore_errCode (s : State) : (resetCore s).errCode = State.reset.errCode := rfl
@[simp] theorem resetCore_klen (s : State) : (resetCore s).klen = State.reset.klen := rfl
@[simp] theorem resetCore_keyIn (s : State) : (resetCore s).keyIn = State.reset.keyIn := rfl
@[simp] theorem resetCore_iv (s : State) : (resetCore s).iv = State.reset.iv := rfl
@[simp] theorem resetCore_din (s : State) : (resetCore s).din = State.reset.din := rfl
@[simp] theorem resetCore_dout (s : State) : (resetCore s).dout = State.reset.dout := rfl
@[simp] theorem resetCore_chain (s : State) : (resetCore s).chain = State.reset.chain := rfl
@[simp] theorem resetCore_keyLat (s : State) : (resetCore s).keyLat = State.reset.keyLat := rfl
@[simp] theorem resetCore_pendCmd (s : State) : (resetCore s).pendCmd = State.reset.pendCmd := rfl
@[simp] theorem resetCore_rawBlockOps (s : State) : (resetCore s).rawBlockOps = s.rawBlockOps := rfl
@[simp] theorem resetCore_events (s : State) : (resetCore s).events = s.events := rfl
@[simp] theorem resetCore_resp (s : State) : (resetCore s).resp = s.resp := rfl

end

section

/-! ### `readWindow`: a host's read changes the response only (R50) -/

@[simp] theorem readWindow_keyBits (off size : Nat) (s : State) :
    (readWindow off size s).keyBits = s.keyBits := by unfold readWindow; split <;> rfl
@[simp] theorem readWindow_irqEn (off size : Nat) (s : State) :
    (readWindow off size s).irqEn = s.irqEn := by unfold readWindow; split <;> rfl
@[simp] theorem readWindow_msgLen (off size : Nat) (s : State) :
    (readWindow off size s).msgLen = s.msgLen := by unfold readWindow; split <;> rfl
@[simp] theorem readWindow_remain (off size : Nat) (s : State) :
    (readWindow off size s).remain = s.remain := by unfold readWindow; split <;> rfl
@[simp] theorem readWindow_busy (off size : Nat) (s : State) :
    (readWindow off size s).busy = s.busy := by unfold readWindow; split <;> rfl
@[simp] theorem readWindow_done (off size : Nat) (s : State) :
    (readWindow off size s).done = s.done := by unfold readWindow; split <;> rfl
@[simp] theorem readWindow_keyValid (off size : Nat) (s : State) :
    (readWindow off size s).keyValid = s.keyValid := by unfold readWindow; split <;> rfl
@[simp] theorem readWindow_session (off size : Nat) (s : State) :
    (readWindow off size s).session = s.session := by unfold readWindow; split <;> rfl
@[simp] theorem readWindow_last (off size : Nat) (s : State) :
    (readWindow off size s).last = s.last := by unfold readWindow; split <;> rfl
@[simp] theorem readWindow_errSticky (off size : Nat) (s : State) :
    (readWindow off size s).errSticky = s.errSticky := by unfold readWindow; split <;> rfl
@[simp] theorem readWindow_wrIgnored (off size : Nat) (s : State) :
    (readWindow off size s).wrIgnored = s.wrIgnored := by unfold readWindow; split <;> rfl
@[simp] theorem readWindow_outLen (off size : Nat) (s : State) :
    (readWindow off size s).outLen = s.outLen := by unfold readWindow; split <;> rfl
@[simp] theorem readWindow_errCode (off size : Nat) (s : State) :
    (readWindow off size s).errCode = s.errCode := by unfold readWindow; split <;> rfl
@[simp] theorem readWindow_klen (off size : Nat) (s : State) :
    (readWindow off size s).klen = s.klen := by unfold readWindow; split <;> rfl
@[simp] theorem readWindow_keyIn (off size : Nat) (s : State) :
    (readWindow off size s).keyIn = s.keyIn := by unfold readWindow; split <;> rfl
@[simp] theorem readWindow_iv (off size : Nat) (s : State) :
    (readWindow off size s).iv = s.iv := by unfold readWindow; split <;> rfl
@[simp] theorem readWindow_din (off size : Nat) (s : State) :
    (readWindow off size s).din = s.din := by unfold readWindow; split <;> rfl
@[simp] theorem readWindow_dout (off size : Nat) (s : State) :
    (readWindow off size s).dout = s.dout := by unfold readWindow; split <;> rfl
@[simp] theorem readWindow_chain (off size : Nat) (s : State) :
    (readWindow off size s).chain = s.chain := by unfold readWindow; split <;> rfl
@[simp] theorem readWindow_keyLat (off size : Nat) (s : State) :
    (readWindow off size s).keyLat = s.keyLat := by unfold readWindow; split <;> rfl
@[simp] theorem readWindow_pendCmd (off size : Nat) (s : State) :
    (readWindow off size s).pendCmd = s.pendCmd := by unfold readWindow; split <;> rfl
@[simp] theorem readWindow_rawBlockOps (off size : Nat) (s : State) :
    (readWindow off size s).rawBlockOps = s.rawBlockOps := by unfold readWindow; split <;> rfl
@[simp] theorem readWindow_events (off size : Nat) (s : State) :
    (readWindow off size s).events = s.events := by unfold readWindow; split <;> rfl

end

end Sys2Proof.Machine
end

