-- ==== Sys2Proof/Laws/Ops.lean ====
section
/-! SUPPORT. What the shared operations do, once each: the register map, the host's accesses, issue, reading the key
operand, and the moves of a step. -/

namespace Sys2Proof.Machine

/-! ### The register map and the window -/

/-- The accesses that reach no register (R51). -/
theorem accessedReg_eq_none_iff {off : Nat} (size : Nat) (h : off < 0x100) :
    accessedReg off size = none ↔ size ≠ 4 ∨ off % 4 ≠ 0 ∨ off = 0x1C ∨ 0x80 ≤ off := by
  have key : ∀ o < 0x100, regAt o = none ↔ o % 4 ≠ 0 ∨ o = 0x1C ∨ 0x80 ≤ o := by decide +kernel
  unfold accessedReg
  split
  · rename_i h4; simp [key off h, h4]
  · simp_all

/-- An address `off` bytes into the window has offset `off` (R44). -/
@[simp] theorem windowOffset_base_add {off : Nat} (h : off < 0x100) : windowOffset (Config.base + off) = some off := by
  simp [windowOffset, h]

/-- An address outside the window has no offset (R44). -/
theorem windowOffset_eq_none_iff (addr : Nat) :
    windowOffset addr = none ↔ addr < Config.base ∨ Config.base + 0xFF < addr := by
  simp only [windowOffset]
  split <;> simp <;> omega

theorem hostRead_base_add {off : Nat} (h : off < 0x100) (size : Nat) (s : State) :
    hostRead (Config.base + off) size s = .next (readWindow off size s) := by
  simp [hostRead, h]

theorem hostWrite_base_add {off : Nat} (h : off < 0x100) (size : Nat) (v : Word) (s : State) :
    hostWrite (Config.base + off) size v s = .next (writeWindow off size v s) := by
  simp [hostWrite, h]

/-- Everything a host's read can do: it faults outside the window, or it changes the response only (R50, R51, R52). -/
theorem hostRead_next {addr size : Nat} {s t : State} (h : hostRead addr size s = .next t) :
    ∃ off, windowOffset addr = some off ∧ t = readWindow off size s := by
  unfold hostRead at h
  split at h
  · cases h
  · rename_i off ho; exact ⟨off, ho, by simpa using h.symm⟩

/-- Everything a host's write can do: it faults outside the window, or it writes the window (R51, R53). -/
theorem hostWrite_next {addr size : Nat} {v : Word} {s t : State} (h : hostWrite addr size v s = .next t) :
    ∃ off, windowOffset addr = some off ∧ t = writeWindow off size v s := by
  unfold hostWrite at h
  split at h
  · cases h
  · rename_i off ho; exact ⟨off, ho, by simpa using h.symm⟩

/-! ### Writes -/

@[simp] theorem issue_of_busy {s : State} (v : Word) (h : s.busy = true) : issue v s = dropWrite s := by simp [issue, h]

@[simp] theorem issue_of_idle {s : State} (v : Word) (h : s.busy = false) :
    issue v s = { s with pendCmd := v, busy := true, done := false } := by simp [issue, h]

/-- A guarded write while a command is pending is dropped (R149). -/
theorem writeReg_dropped {r : Reg} {s : State} (v : Word) (hg : r.guarded = true) (hb : s.busy = true) :
    writeReg r v s = dropWrite s := by simp [writeReg, hg, hb]

/-- What a write leaves alone whatever the register: results, session, latch and parameters (R53). -/
theorem writeReg_frame (r : Reg) (v : Word) (s : State) :
    (writeReg r v s).remain = s.remain ∧ (writeReg r v s).keyValid = s.keyValid ∧
    (writeReg r v s).session = s.session ∧ (writeReg r v s).last = s.last ∧
    (writeReg r v s).outLen = s.outLen ∧ (writeReg r v s).errCode = s.errCode ∧
    (writeReg r v s).klen = s.klen ∧ (writeReg r v s).dout = s.dout ∧
    (writeReg r v s).chain = s.chain ∧ (writeReg r v s).keyLat = s.keyLat ∧
    (writeReg r v s).rawBlockOps = s.rawBlockOps ∧ (writeReg r v s).events = s.events ∧
    (writeReg r v s).resp = s.resp := by
  unfold writeReg issue
  split
  · simp
  · cases r <;> simp
    split <;> simp

/-- A write while a command is pending changes at most DONE, ERR_STICKY and WR_IGNORED (R149, R150). -/
theorem writeReg_of_busy (r : Reg) (v : Word) {s : State} (hb : s.busy = true) :
    writeReg r v s = s ∨ writeReg r v s = dropWrite s ∨ writeReg r v s = writeStatus v s := by
  cases r <;> simp [writeReg, Reg.guarded, hb]

/-- A write through the window is a bus error or a register write, answered (R51, R53). -/
theorem writeWindow_cases (off size : Nat) (v : Word) (s : State) :
    (accessedReg off size = none ∧ writeWindow off size v s = { s with resp := .busError }) ∨
    ∃ r, accessedReg off size = some r ∧ writeWindow off size v s = { writeReg r v s with resp := .written } := by
  unfold writeWindow
  cases accessedReg off size <;> simp

/-! ### The key operand -/

/-- A cipher command with a key length runs on its key operand. -/
theorem withCipherKey_of_some {s : State} {k : List Byte} (h : cipherKey s = some k) (f : List Byte → Result) :
    withCipherKey s f = f k := by simp [withCipherKey, h]

/-- The key operand is there exactly when KLEN is not 0 (R30). -/
theorem cipherKey_isSome_iff (s : State) : (cipherKey s).isSome ↔ s.klen ≠ .none := by
  unfold cipherKey
  cases s.klen <;> simp [KLen.words]

/-- If a cipher command answers a next state, it ran on the key operand. -/
theorem withCipherKey_next {s t : State} {f : List Byte → Result} (h : withCipherKey s f = .next t) :
    ∃ k, cipherKey s = some k ∧ f k = .next t := by
  unfold withCipherKey at h
  split at h
  · cases h
  · rename_i k hk; exact ⟨k, hk, h⟩

/-! ### Moves and steps -/

/-- Everything the engine's move can do (R67, R68, R69). -/
theorem engineMove_next {s t : State} (h : engineMove s = .next t) :
    (s.busy = false ∧ t = s) ∨
    (s.busy = true ∧ ∃ i, decode s.rawBlockOps s.pendCmd = .ok i ∧ exec i s = .next t) ∨
    (s.busy = true ∧ (∃ e, decode s.rawBlockOps s.pendCmd = .error e) ∧ t = completion .illegalCommand s) := by
  unfold engineMove at h
  split at h
  · rename_i hb
    split at h
    · rename_i i hi; exact .inr (.inl ⟨hb, i, hi, h⟩)
    · rename_i e he; exact .inr (.inr ⟨hb, ⟨e, he⟩, by simpa [raise] using h.symm⟩)
  · rename_i hb; exact .inl ⟨by simpa using hb, by simpa using h.symm⟩

/-- Everything a step can do: the move at the head of the schedule, or the engine's turn when it is empty (R15, R56, R157). -/
theorem step_next {s t : State} (h : step s = .next t) :
    (s.events = [] ∧ engineMove s = .next t) ∨
    ∃ rest, (s.events = .engine :: rest ∧ engineMove { s with events := rest } = .next t) ∨
      (s.events = .reset :: rest ∧ t = resetCore { s with events := rest }) ∨
      (∃ addr size, s.events = .read addr size :: rest ∧ hostRead addr size { s with events := rest } = .next t) ∨
      (∃ addr size v, s.events = .write addr size v :: rest ∧ hostWrite addr size v { s with events := rest } = .next t) := by
  unfold step advance at h
  split at h
  · exact .inl ⟨‹_›, h⟩
  · rename_i e rest he
    refine .inr ⟨rest, ?_⟩
    cases e <;> simp only [move] at h
    · exact .inr (.inr (.inl ⟨_, _, he, h⟩))
    · exact .inr (.inr (.inr ⟨_, _, _, he, h⟩))
    · exact .inl ⟨he, h⟩
    · exact .inr (.inl ⟨he, by simpa using h.symm⟩)

theorem step_of_nil {s : State} (h : s.events = []) : step s = engineMove s := by simp [step, advance, h]

theorem step_of_cons {s : State} {e : Event} {rest : List Event} (h : s.events = e :: rest) :
    step s = move e { s with events := rest } := by simp [step, advance, h]

/-- The step of a host's read inside the window (R51, R52). -/
theorem step_of_read {s : State} {rest : List Event} {off size : Nat}
    (h : s.events = .read (Config.base + off) size :: rest) (ho : off < 0x100) :
    step s = .next (readWindow off size { s with events := rest }) :=
  (step_of_cons h).trans (hostRead_base_add ho _ _)

/-- The step of a host's write inside the window (R51, R53). -/
theorem step_of_write {s : State} {rest : List Event} {off size : Nat} {v : Word}
    (h : s.events = .write (Config.base + off) size v :: rest) (ho : off < 0x100) :
    step s = .next (writeWindow off size v { s with events := rest }) :=
  (step_of_cons h).trans (hostWrite_base_add ho _ _ _)

/-- A run of no step. -/
theorem run_zero (s : State) : Host.Core.run Sys2Proof.core 0 s = .next s := rfl

/-- A run begins with a step. -/
theorem run_succ_of_next {s t : State} (n : Nat) (h : step s = .next t) :
    Host.Core.run Sys2Proof.core (n + 1) s = Host.Core.run Sys2Proof.core n t := by
  have h' : Sys2Proof.core.step s = .next t := h
  have e := Host.Core.run.eq_2 Sys2Proof.core s n
  rw [h'] at e
  exact e

/-- A run that answers a next state went through its first step's next state. -/
theorem run_succ_next {s t : State} {n : Nat} (h : Host.Core.run Sys2Proof.core (n + 1) s = .next t) :
    ∃ u, step s = .next u ∧ Host.Core.run Sys2Proof.core n u = .next t := by
  have e := (Host.Core.run.eq_2 Sys2Proof.core s n).symm.trans h
  cases hs : Sys2Proof.core.step s with
  | next u => rw [hs] at e; exact ⟨u, hs, e⟩
  | fault r => rw [hs] at e; cases e
  | refused r => rw [hs] at e; cases e

end Sys2Proof.Machine
end

