-- ==== Sys2Proof/Laws/Exec.lean ====
section
/-! SUPPORT. Everything each command can do when it answers a next state: one inversion lemma a command, which later proofs
cite instead of unfolding the meaning. -/

namespace Sys2Proof.Machine

theorem succeed_next {s t : State} (h : succeed s = .next t) : t = completion .ok s := by
  simpa [succeed] using h.symm

theorem raise_next {e : ErrCode} {s t : State} (h : raise e s = .next t) : t = completion e s := by
  simpa [raise] using h.symm

/-- NOP (R117). -/
theorem execNop_next {s t : State} (h : execNop s = .next t) : t = completion .ok s := succeed_next h

/-- ABORT (R118). -/
theorem execAbort_next {s t : State} (h : execAbort s = .next t) :
    t = completion .ok { endSession s with chain := .zero, dout := .zero, outLen := 0, last := false } := succeed_next h

/-- KEY_INIT (R93). -/
theorem execKeyInit_next {s t : State} (h : execKeyInit s = .next t) :
    (KLen.ofKeyBits s.keyBits = .none ∧ t = completion .unsupportedKeyLength s) ∨
    ∃ nk, (KLen.ofKeyBits s.keyBits).words = some nk ∧ t = completion .ok
      (endSession { s with keyLat := s.keyIn.keepQuads nk, klen := KLen.ofKeyBits s.keyBits, keyValid := true }) := by
  unfold execKeyInit at h
  dsimp only at h
  split at h
  · rename_i hw
    refine .inl ⟨?_, raise_next h⟩
    cases hk : KLen.ofKeyBits s.keyBits <;> simp [hk, KLen.words] at hw ⊢
  · rename_i nk hw; exact .inr ⟨nk, hw, succeed_next h⟩

/-- KEY_CLEAR (R94). -/
theorem execKeyClear_next {s t : State} (h : execKeyClear s = .next t) :
    t = completion .ok (endSession { s with keyIn := .zero, keyLat := .zero, klen := .none, keyValid := false }) :=
  succeed_next h

/-- ENC_START (R100). -/
theorem execEncStart_next {s t : State} (h : execEncStart s = .next t) :
    (s.keyValid = true ∧ t = completion .ok (openSession .enc s)) ∨
    (s.keyValid = false ∧ t = completion .invalidKeyMaterial s) := by
  unfold execEncStart at h
  split at h
  · exact .inl ⟨‹_›, succeed_next h⟩
  · exact .inr ⟨by simp_all, raise_next h⟩

/-- DEC_START (R110). -/
theorem execDecStart_next {s t : State} (h : execDecStart s = .next t) :
    (s.keyValid = true ∧ 0 < s.msgLen.toNat ∧ s.msgLen.toNat % 16 = 0 ∧ t = completion .ok (openSession .dec s)) ∨
    (s.keyValid = true ∧ (s.msgLen.toNat = 0 ∨ s.msgLen.toNat % 16 ≠ 0) ∧
      t = completion .invalidCiphertextLength s) ∨
    (s.keyValid = false ∧ t = completion .invalidKeyMaterial s) := by
  unfold execDecStart at h
  split at h
  · split at h
    · exact .inr (.inl ⟨‹_›, ‹_›, raise_next h⟩)
    · rename_i hk hm
      exact .inl ⟨hk, by omega, by omega, succeed_next h⟩
  · exact .inr (.inr ⟨by simp_all, raise_next h⟩)

/-- ENC_BLOCK (R101). -/
theorem execEncBlock_next {s t : State} (h : execEncBlock s = .next t) :
    (s.session ≠ .enc ∧ t = completion .sequenceError s) ∨
    (s.session = .enc ∧ ∃ k c, cipherKey s = some k ∧
      ((16 ≤ s.remain.toNat ∧ c = aesEncrypt k (s.din.xor s.chain) ∧ t = completion .ok
          { s with remain := s.remain - 16, chain := c, dout := c, outLen := 16, last := false }) ∨
       (s.remain.toNat < 16 ∧ c = aesEncrypt k ((padBlock s.remain.toNat s.din).xor s.chain) ∧ t = completion .ok
          { s with remain := 0, chain := c, dout := c, outLen := 16, last := true, session := .idle }))) := by
  unfold execEncBlock at h
  split at h
  · obtain ⟨k, hk, h⟩ := withCipherKey_next h
    dsimp only at h
    refine .inr ⟨‹_›, k, ?_⟩
    split at h
    · exact ⟨_, hk, .inl ⟨‹_›, rfl, succeed_next h⟩⟩
    · exact ⟨_, hk, .inr ⟨by omega, rfl, succeed_next h⟩⟩
  · exact .inl ⟨‹_›, raise_next h⟩

/-- DEC_BLOCK (R111). -/
theorem execDecBlock_next {s t : State} (h : execDecBlock s = .next t) :
    (s.session ≠ .dec ∧ t = completion .sequenceError s) ∨
    (s.session = .dec ∧ 16 ≤ s.remain.toNat ∧ ∃ k x, cipherKey s = some k ∧ x = (aesDecrypt k s.din).xor s.chain ∧
      ((16 < s.remain.toNat ∧ t = completion .ok
          { s with chain := s.din, remain := s.remain - 16, dout := x, outLen := 16, last := false }) ∨
       (s.remain.toNat = 16 ∧ validPadding x = true ∧ t = completion .ok
          { s with chain := s.din, remain := s.remain - 16, last := true, session := .idle,
                   dout := stripPadding x, outLen := BitVec.ofNat 5 (16 - padValue x) }) ∨
       (s.remain.toNat = 16 ∧ validPadding x = false ∧ t = completion .paddingValidationFailure
          { s with chain := s.din, remain := s.remain - 16, last := true, session := .idle,
                   dout := .zero, outLen := 0 }))) := by
  unfold execDecBlock at h
  split at h
  · obtain ⟨k, hk, h⟩ := withCipherKey_next h
    split at h
    · cases h
    · rename_i hs _ hr
      have hsub : (s.remain - 16).toNat = s.remain.toNat - 16 := by
        rw [BitVec.toNat_sub_of_le (by simp [BitVec.le_def]; omega)]; simp
      refine .inr ⟨hs, by omega, k, _, hk, rfl, ?_⟩
      dsimp only at h
      rw [hsub] at h
      split at h
      · exact .inl ⟨by omega, succeed_next h⟩
      · split at h
        · exact .inr (.inl ⟨by omega, ‹_›, succeed_next h⟩)
        · exact .inr (.inr ⟨by omega, by simp_all, raise_next h⟩)
  · exact .inl ⟨‹_›, raise_next h⟩

/-- AES_ENC (R91). -/
theorem execAesEnc_next {s t : State} (h : execAesEnc s = .next t) :
    (s.rawBlockOps = false ∧ t = completion .illegalCommand s) ∨
    (s.rawBlockOps = true ∧ s.keyValid = false ∧ t = completion .invalidKeyMaterial s) ∨
    (s.rawBlockOps = true ∧ s.keyValid = true ∧ ∃ k, cipherKey s = some k ∧
      t = completion .ok (rawOutput (aesEncrypt k s.din) s)) := by
  unfold execAesEnc at h
  split at h
  · split at h
    · obtain ⟨k, hk, h⟩ := withCipherKey_next h
      exact .inr (.inr ⟨‹_›, ‹_›, k, hk, succeed_next h⟩)
    · exact .inr (.inl ⟨‹_›, by simp_all, raise_next h⟩)
  · exact .inl ⟨by simp_all, raise_next h⟩

/-- AES_DEC (R92). -/
theorem execAesDec_next {s t : State} (h : execAesDec s = .next t) :
    (s.rawBlockOps = false ∧ t = completion .illegalCommand s) ∨
    (s.rawBlockOps = true ∧ s.keyValid = false ∧ t = completion .invalidKeyMaterial s) ∨
    (s.rawBlockOps = true ∧ s.keyValid = true ∧ ∃ k, cipherKey s = some k ∧
      t = completion .ok (rawOutput (aesDecrypt k s.din) s)) := by
  unfold execAesDec at h
  split at h
  · split at h
    · obtain ⟨k, hk, h⟩ := withCipherKey_next h
      exact .inr (.inr ⟨‹_›, ‹_›, k, hk, succeed_next h⟩)
    · exact .inr (.inl ⟨‹_›, by simp_all, raise_next h⟩)
  · exact .inl ⟨by simp_all, raise_next h⟩

end Sys2Proof.Machine
end

