-- ==== Sys2Proof/Laws/PerInstr.lean ====
section
/-! SUPPORT. Per-command facts about the commands as syntax: the encoder's word is read back by the decoder, in a build where
the command exists, and from the opcode table's numbering of its bits (R63, R68). -/

namespace Sys2Proof.Laws.RoundTrip

/-- The word of `i` decodes to `i` exactly in the builds that have it, and the opcode table's word for it is read as `i`. -/
def Statement (i : Instr) : Prop :=
  (∀ raw, i.wellFormed raw = true → decode raw (encode i) = .ok i) ∧
    (∀ raw, i.wellFormed raw = false → decode raw (encode i) = .error .rawBlockOpsAbsent) ∧
    decodeTableWord 32 (encode i).toNat = some i

theorem nop : Statement .nop := by unfold Statement; decide
theorem keyInit : Statement .keyInit := by unfold Statement; decide
theorem keyClear : Statement .keyClear := by unfold Statement; decide
theorem encStart : Statement .encStart := by unfold Statement; decide
theorem decStart : Statement .decStart := by unfold Statement; decide
theorem encBlock : Statement .encBlock := by unfold Statement; decide
theorem decBlock : Statement .decBlock := by unfold Statement; decide
theorem abort : Statement .abort := by unfold Statement; decide
theorem aesEnc : Statement .aesEnc := by unfold Statement; decide
theorem aesDec : Statement .aesDec := by unfold Statement; decide

end Sys2Proof.Laws.RoundTrip
end

