-- ==== Sys2Proof/Tests/Slice0.lean ====
section
/-! SUPPORT. Tests whose expected values are the spec's (95_test_vectors.md and the encodings of 30_encoding.md), and, for every
statement of Certificates/Slice0/Obligations.lean that has hypotheses, a theorem `witness_<Name>` that shows values meeting
them, one for each clause. -/

namespace Sys2Proof.Tests

set_option Elab.async false

open Sys2Proof.Machine

/-! ### Helpers -/

/-- The `n` bytes of a string written in hex with byte 0 first. -/
def hexBytes (n x : Nat) : List Byte := (List.range n).map fun i => BitVec.ofNat 8 (x >>> (8 * (n - 1 - i)))

/-- The block written in hex with byte 0 first. -/
def blk (x : Nat) : Block := Block.ofFn fun i => BitVec.ofNat 8 (x >>> (8 * (15 - i)))

/-- The four bytes written in hex with byte 0 first, as FIPS-197 writes a key-schedule word. -/
def quad (x : Nat) : Quad := quadOfWord (BitVec.ofNat 8 x ++ BitVec.ofNat 8 (x >>> 8) ++ BitVec.ofNat 8 (x >>> 16) ++
  BitVec.ofNat 8 (x >>> 24))

/-- A 32-byte string from two blocks. -/
def keyBytes (a b : Block) : KeyBytes := ⟨a.q0, a.q1, a.q2, a.q3, b.q0, b.q1, b.q2, b.q3⟩

/-- What `f` says of the next state; none if there is none. -/
def next? {α : Type} (r : Result) (f : State → α) : Option α :=
  match r with
  | .next t => some (f t)
  | _ => none

/-- Key K_A of 95_test_vectors.md. -/
def kA : Block := blk 0x2b7e151628aed2a6abf7158809cf4f3c

/-- IV_A of 95_test_vectors.md. -/
def ivA : Block := blk 0x000102030405060708090a0b0c0d0e0f

/-- Blocks P_1, P_2, C_1, C_2 of SP 800-38A F.2.1. -/
def p1 : Block := blk 0x6bc1bee22e409f96e93d7e117393172a
def p2 : Block := blk 0xae2d8a571e03ac9c9eb76fac45af8e51
def c1 : Block := blk 0x7649abac8119b246cee98e9b12e9197d
def c2 : Block := blk 0x5086cb9b507219ee95db113a917678b2

/-- The state after reset with a 128-bit key in KEY_IN and in the latch (KEY_INIT completed: DONE = 1). -/
def withKey (k : Block) : State :=
  { State.reset with keyIn := keyBytes k .zero, keyLat := keyBytes k .zero, klen := .bits128, keyValid := true, done := true }

/-- K_A loaded. -/
def loaded : State := withKey kA

/-- K_A loaded and a session open with `n` bytes remaining and `c` in CHAIN. -/
def inSession (k : Session) (n : Word) (c : Block) : State := { loaded with session := k, remain := n, chain := c }

/-- A command word pending. -/
def pending (w : Word) (s : State) : State := { s with pendCmd := w, busy := true, done := false }

/-- A host read of a register comes next. -/
def readNext (off : Nat) (s : State) : State := { s with events := [.read (Config.base + off) 4] }

/-- A host write of a register comes next. -/
def writeNext (off : Nat) (v : Word) (s : State) : State := { s with events := [.write (Config.base + off) 4 v] }

/-! ### Which commands a build has, and their words (R8, R63, R68) -/

theorem test_aesEnc_illFormed_without_rawBlockOps : Instr.aesEnc.wellFormed false = false := by decide
theorem test_aesDec_illFormed_without_rawBlockOps : Instr.aesDec.wellFormed false = false := by decide
theorem test_aesEnc_wellFormed_with_rawBlockOps : Instr.aesEnc.wellFormed true = true := by decide

/-- Every constructor's word, bits [7:0] the opcode and bits [31:8] zero. -/
theorem test_decode_words :
    decode true 0b00000000000000000000000000000000 = .ok .nop ∧
    decode true 0b00000000000000000000000000000001 = .ok .keyInit ∧
    decode true 0b00000000000000000000000000000010 = .ok .keyClear ∧
    decode true 0b00000000000000000000000000000011 = .ok .encStart ∧
    decode true 0b00000000000000000000000000000100 = .ok .decStart ∧
    decode true 0b00000000000000000000000000000101 = .ok .encBlock ∧
    decode true 0b00000000000000000000000000000110 = .ok .decBlock ∧
    decode true 0b00000000000000000000000000000111 = .ok .abort ∧
    decode true 0b00000000000000000000000000001000 = .ok .aesEnc ∧
    decode true 0b00000000000000000000000000001001 = .ok .aesDec := by decide

/-- The table of 95_test_vectors.md 3.6: what is no command. -/
theorem test_decode_rejects :
    decode false 0x00000008 = .error .rawBlockOpsAbsent ∧ decode false 0x00000009 = .error .rawBlockOpsAbsent ∧
    decode true 0x0000000A = .error .reservedOpcode ∧ decode true 0x000000FF = .error .reservedOpcode ∧
    decode true 0x00000100 = .error .reservedBitsSet ∧ decode true 0x00000105 = .error .reservedBitsSet ∧
    decode true 0xFFFFFFFF = .error .reservedBitsSet := by decide

theorem test_encode_words :
    encode .nop = 0x00000000 ∧ encode .decBlock = 0x00000006 ∧ encode .aesDec = 0x00000009 := by decide

/-- `decodeTableWord` drops nothing within the row's width and refuses what is no command. -/
theorem test_decodeTableWord :
    decodeTableWord 32 0x00000003 = some .encStart ∧ decodeTableWord 32 0x00000009 = some .aesDec ∧
    decodeTableWord 32 0x0000000A = none ∧ decodeTableWord 32 0x80000003 = none := by decide

/-! ### The cipher (95_test_vectors.md 1.1 to 1.4) -/

theorem test_field_arithmetic :
    xtime 0x57 = 0xAE ∧ xtime 0x80 = 0x1B ∧ gmul 0x57 0x13 = 0xFE ∧ gmul 0x57 0x83 = 0xC1 ∧ gmul 0x53 0xCA = 0x01 := by decide

theorem test_sboxes :
    sbox 0x00 = 0x63 ∧ sbox 0x53 = 0xED ∧ sbox 0xFF = 0x16 ∧
    invSbox 0x63 = 0x00 ∧ invSbox 0xED = 0x53 ∧ invSbox 0x00 = 0x52 := by decide +kernel

/-- `b^254` by squarings: the inverse in GF(2^8), 0 for 0. -/
def inverse (b : Byte) : Byte :=
  let sq (x : Byte) : Byte := gmul x x
  let b2 := sq b
  let b4 := sq b2
  let b8 := sq b4
  let b16 := sq b8
  let b32 := sq b16
  let b64 := sq b32
  gmul (gmul (gmul b2 b4) (gmul b8 b16)) (gmul (gmul b32 b64) (sq b64))

/-- R80: SBOX is the affine transformation of the inverse, at every byte. -/
theorem test_sbox_is_affine_of_inverse :
    ∀ b : Byte, sbox b = inverse b ^^^ (inverse b).rotateLeft 1 ^^^ (inverse b).rotateLeft 2 ^^^
      (inverse b).rotateLeft 3 ^^^ (inverse b).rotateLeft 4 ^^^ 0x63 := by decide +kernel

/-- FIPS-197 A.1. -/
theorem test_keyWords_128 :
    let ws := keyWords (hexBytes 16 0x2b7e151628aed2a6abf7158809cf4f3c)
    ws.length = 44 ∧ ws[4]? = some (quad 0xa0fafe17) ∧ ws[5]? = some (quad 0x88542cb1) ∧
      ws[43]? = some (quad 0xb6630ca6) := by decide +kernel

/-- FIPS-197 A.2. -/
theorem test_keyWords_192 :
    let ws := keyWords (hexBytes 24 0x8e73b0f7da0e6452c810f32b809079e562f8ead2522c6b7b)
    ws.length = 52 ∧ ws[6]? = some (quad 0xfe0c91f7) ∧ ws[7]? = some (quad 0x2402f5a5) ∧
      ws[51]? = some (quad 0x01002202) := by decide +kernel

/-- FIPS-197 A.3. -/
theorem test_keyWords_256 :
    let ws := keyWords (hexBytes 32 0x603deb1015ca71be2b73aef0857d77811f352c073b6108d72d9810a30914dff4)
    ws.length = 60 ∧ ws[8]? = some (quad 0x9ba35411) ∧ ws[9]? = some (quad 0x8e6925af) ∧
      ws[59]? = some (quad 0x706c631e) := by decide +kernel

/-- FIPS-197 Appendix B, round 1. -/
theorem test_round_steps :
    addRoundKey (keyWords kA.toList) 0 (blk 0x3243f6a8885a308d313198a2e0370734) = blk 0x193de3bea0f4e22b9ac68d2ae9f84808 ∧
    subBytes (blk 0x193de3bea0f4e22b9ac68d2ae9f84808) = blk 0xd42711aee0bf98f1b8b45de51e415230 ∧
    shiftRows (blk 0xd42711aee0bf98f1b8b45de51e415230) = blk 0xd4bf5d30e0b452aeb84111f11e2798e5 ∧
    mixColumns (blk 0xd4bf5d30e0b452aeb84111f11e2798e5) = blk 0x046681e5e0cb199a48f8d37a2806264c ∧
    addRoundKey (keyWords kA.toList) 1 (blk 0x046681e5e0cb199a48f8d37a2806264c) =
      blk 0xa49c7ff2689f352b6b5bea43026a5049 := by decide +kernel

/-- FIPS-197 C.1. -/
theorem test_cipher_128 :
    let k := hexBytes 16 0x000102030405060708090a0b0c0d0e0f
    aesEncrypt k (blk 0x00112233445566778899aabbccddeeff) = blk 0x69c4e0d86a7b0430d8cdb78070b4c55a ∧
    aesDecrypt k (blk 0x69c4e0d86a7b0430d8cdb78070b4c55a) = blk 0x00112233445566778899aabbccddeeff := by decide +kernel

/-- FIPS-197 C.2. -/
theorem test_cipher_192 :
    let k := hexBytes 24 0x000102030405060708090a0b0c0d0e0f1011121314151617
    aesEncrypt k (blk 0x00112233445566778899aabbccddeeff) = blk 0xdda97ca4864cdfe06eaf70a0ec0d7191 ∧
    aesDecrypt k (blk 0xdda97ca4864cdfe06eaf70a0ec0d7191) = blk 0x00112233445566778899aabbccddeeff := by decide +kernel

/-- FIPS-197 C.3. -/
theorem test_cipher_256 :
    let k := hexBytes 32 0x000102030405060708090a0b0c0d0e0f101112131415161718191a1b1c1d1e1f
    aesEncrypt k (blk 0x00112233445566778899aabbccddeeff) = blk 0x8ea2b7ca516745bfeafc49904b496089 ∧
    aesDecrypt k (blk 0x8ea2b7ca516745bfeafc49904b496089) = blk 0x00112233445566778899aabbccddeeff := by decide +kernel

/-! ### Padding (95_test_vectors.md 3.3, 3.4) -/

/-- The padded final blocks of 3.3 and of row E5. -/
theorem test_padBlock :
    padBlock 0 p1 = blk 0x10101010101010101010101010101010 ∧ padBlock 1 p1 = blk 0x6b0f0f0f0f0f0f0f0f0f0f0f0f0f0f0f ∧
    padBlock 15 p1 = blk 0x6bc1bee22e409f96e93d7e1173931701 ∧
    padBlock 4 (blk 0x10111213ffffffffffffffffffffffff) = blk 0x101112130c0c0c0c0c0c0c0c0c0c0c0c := by decide +kernel

/-- Rows V1, V3, V4, V8, V10, V13: valid, with what DOUT holds. -/
theorem test_validator_accepts :
    [(0x00112233445566778899aabbccddee01, 0x00112233445566778899aabbccddee00),
     (0x00112233445566778899aabbccdd0202, 0x00112233445566778899aabbccdd0000),
     (0x10101010101010101010101010101010, 0x00000000000000000000000000000000),
     (0x00112233445566770808080808080808, 0x00112233445566770000000000000000),
     (0x01010101010101010101010101010101, 0x01010101010101010101010101010100),
     (0x0f0f0f0f0f0f0f0f0f0f0f0f0f0f0f0f, 0x0f000000000000000000000000000000)].all
      (fun (x, d) => validPadding (blk x) && (stripPadding (blk x) == blk d)) = true := by decide +kernel

/-- Rows V2, V5, V6, V7, V9, V11, V12: invalid. -/
theorem test_validator_rejects :
    [0x00112233445566778899aabbccddee02, 0x0f101010101010101010101010101010, 0x00112233445566778899aabbccddee00,
     0x00112233445566778899aabbccddee11, 0x00112233445566778899aabbccddeeff, 0x00112233445566770708080808080808,
     0x00112233445566778899aabbccdd0102].all (fun x => !validPadding (blk x)) = true := by decide +kernel

/-! ### Commands (95_test_vectors.md 3.1 to 3.5) -/

/-- N1, N2. -/
theorem test_nop :
    next? (exec .nop loaded) statusWord = some 0x00100006 ∧
    next? (exec .nop { State.reset with errCode := .invalidKeyMaterial, errSticky := true }) statusWord =
      some 0x00000042 := by decide +kernel

/-- K1 to K3: the three lengths. -/
theorem test_keyInit_lengths :
    next? (exec .keyInit State.reset) statusWord = some 0x00100006 ∧
    next? (exec .keyInit { State.reset with keyBits := 192 }) statusWord = some 0x00200006 ∧
    next? (exec .keyInit { State.reset with keyBits := 256 }) statusWord = some 0x00300006 := by decide +kernel

/-- K12, K4 to K9: the old key is kept. -/
theorem test_keyInit_refuses :
    [100, 0, 64, 127, 129, 0xFFFF].all (fun n =>
      next? (exec .keyInit { loaded with keyBits := n, keyIn := .zero }) (fun t => (statusWord t, t.keyLat)) ==
        some (0x00110046, keyBytes kA .zero)) = true := by decide +kernel

/-- K13. -/
theorem test_keyClear :
    next? (exec .keyClear loaded) (fun t => (statusWord t, t.keyIn, t.keyLat)) = some (0x00000002, .zero, .zero) := by
  decide +kernel

/-- K15: the open session ends. -/
theorem test_keyClear_ends_session :
    next? (exec .keyClear (inSession .enc 5 c1)) (fun t => (t.session, t.remain)) = some (.idle, 0) := by decide +kernel

/-- E1 and E11: opening and restarting. -/
theorem test_encStart :
    next? (exec .encStart { loaded with iv := ivA, msgLen := 32 }) (fun t => (statusWord t, t.remain, t.chain)) =
      some (0x0010000E, 32, ivA) ∧
    next? (exec .encStart { inSession .enc 16 c1 with iv := ivA, msgLen := 5, dout := c1, outLen := 16 })
      (fun t => (t.remain, t.chain, t.dout, t.outLen)) = some (5, ivA, .zero, 0) := by decide +kernel

/-- E9. -/
theorem test_encStart_without_key : next? (exec .encStart State.reset) statusWord = some 0x00030042 := by decide +kernel

/-- E3: with 16 bytes remaining the block is not the final one. -/
theorem test_encBlock_full :
    next? (exec .encBlock { inSession .enc 16 c1 with din := p2 }) (fun t => (t.dout, t.chain, t.remain, t.session)) =
      some (c2, c2, 0, .enc) := by decide +kernel

/-- E4: with none remaining the block is all padding, whatever DIN holds. -/
theorem test_encBlock_final :
    next? (exec .encBlock { inSession .enc 0 c2 with din := p1 }) (fun t => (t.dout, statusWord t)) =
      some (blk 0x55e21d7100b988ffec32feeafaf23538, 0x00101026) := by decide +kernel

/-- The length table of 3.4. -/
theorem test_decStart_lengths :
    [(0x00000000, .invalidCiphertextLength), (0x0000000F, .invalidCiphertextLength), (0x00000010, .ok), (0x00000020, .ok),
     (0x00000021, .invalidCiphertextLength), (0x80000000, .ok), (0xFFFFFFF0, .ok),
     (0xFFFFFFFF, ErrCode.invalidCiphertextLength)].all
      (fun (n, e) => next? (exec .decStart { loaded with msgLen := n }) (·.errCode) == some e) = true := by decide +kernel

/-- The key is checked before the length. -/
theorem test_decStart_without_key :
    next? (exec .decStart { State.reset with msgLen := 7 }) statusWord = some 0x00030042 := by decide +kernel

/-- X1: a block that is not the final one. -/
theorem test_decBlock_inner :
    next? (exec .decBlock { inSession .dec 32 ivA with din := c1 }) (fun t => (t.dout, t.remain, t.chain, statusWord t)) =
      some (p1, 16, c1, 0x00101016) := by decide +kernel

/-- V1 and V2: the final block, with valid and with invalid padding. -/
theorem test_decBlock_final :
    next? (exec .decBlock (inSession .dec 16 (blk 0xada71562089f5fe5acb5720c9160e4d4)))
      (fun t => (t.dout, t.remain, statusWord t)) = some (blk 0x00112233445566778899aabbccddee00, 0, 0x00100F26) ∧
    next? (exec .decBlock (inSession .dec 16 (blk 0xada71562089f5fe5acb5720c9160e4d7)))
      (fun t => (t.dout, t.remain, statusWord t)) = some (.zero, 0, 0x00170066) := by decide +kernel

/-- B1. -/
theorem test_abort :
    next? (exec .abort { inSession .enc 5 c1 with dout := c1, outLen := 16 })
      (fun t => (statusWord t, t.remain, t.chain, t.dout)) = some (0x00100006, 0, .zero, .zero) := by decide +kernel

/-- A1 (with A10's open session): only DOUT, OUT_LEN and LAST of the data path change. -/
theorem test_aesEnc :
    next? (exec .aesEnc { withKey ivA with
        session := .enc, remain := 5, chain := c1, last := true, din := blk 0x00112233445566778899aabbccddeeff })
      (fun t => (t.dout, t.remain, t.chain, statusWord t)) =
      some (blk 0x69c4e0d86a7b0430d8cdb78070b4c55a, 5, c1, 0x0010100E) := by decide +kernel

/-- A9. -/
theorem test_aesEnc_without_key : next? (exec .aesEnc State.reset) statusWord = some 0x00030042 := by decide +kernel

/-- A4, with the zero key. -/
theorem test_aesDec :
    next? (exec .aesDec (withKey .zero)) (·.dout) = some (blk 0x140f0f1011b5223d79587717ffd9ec3a) := by decide +kernel

/-- A11: without the raw block commands the word is illegal. -/
theorem test_aesDec_without_rawBlockOps :
    next? (step (pending 0x00000009 { loaded with rawBlockOps := false })) (fun t => (statusWord t, t.dout)) =
      some (0x00180046, .zero) := by decide +kernel

/-! ### Registers (95_test_vectors.md 3.7, 3.8) -/

/-- M1 to M4, M6. -/
theorem test_reads_after_reset :
    readReg .id State.reset = 0x41455343 ∧ readReg .version State.reset = 0x00000100 ∧
    readReg .config State.reset = 0x00000080 ∧ readReg .status State.reset = 0 ∧ readReg .cmd State.reset = 0 := by
  decide +kernel

/-- M8, M9: the little-endian lanes. -/
theorem test_lanes :
    (writeReg (.iv 0) 0x03020100 State.reset).iv.get 0 = 0x00 ∧ (writeReg (.iv 0) 0x03020100 State.reset).iv.get 3 = 0x03 ∧
    readReg (.iv 0) (writeReg (.iv 0) 0x03020100 State.reset) = 0x03020100 ∧
    (writeReg (.din 3) 0x2A179373 State.reset).din.get 12 = 0x73 ∧
    (writeReg (.din 3) 0x2A179373 State.reset).din.get 15 = 0x2A := by decide +kernel

/-- K_A is written as 95_test_vectors.md writes its words, and reads 0 (M7). -/
theorem test_key_words :
    let s := writeReg (.key 3) 0x3C4FCF09 (writeReg (.key 2) 0x8815F7AB (writeReg (.key 1) 0xA6D2AE28
      (writeReg (.key 0) 0x16157E2B State.reset)))
    s.keyIn = keyBytes kA .zero ∧ readReg (.key 0) s = 0 := by decide +kernel

/-- K11: bits 31:17 of CONFIG are ignored. -/
theorem test_config : readReg .config (writeReg .config 0xFFFE0080 State.reset) = 0x00000080 := by decide +kernel

/-- M10 to M13: bus errors; M14, M5: ignored writes. -/
theorem test_window_edges :
    [(0x1C, 4), (0x80, 4), (0xC0, 4), (0xFC, 4), (0x22, 4), (0x10, 1), (0x10, 2)].all
      (fun (off, n) => (readWindow off n State.reset).resp == .busError &&
        (writeWindow off n 5 State.reset == { State.reset with resp := .busError })) = true ∧
    [0x00, 0x18, 0x60, 0x70].all
      (fun off => writeWindow off 4 5 State.reset == { State.reset with resp := .written }) = true := by decide +kernel

/-- S1, S2: guarded writes while a command is pending are dropped. -/
theorem test_dropped_writes :
    writeReg (.din 0) 0xDEADBEEF (pending 0 State.reset) = { pending 0 State.reset with wrIgnored := true } ∧
    writeReg .cmd 0x00000007 (pending 0 State.reset) = { pending 0 State.reset with wrIgnored := true } := by decide +kernel

/-- S6: W1C of STATUS clears three bits only. -/
theorem test_status_w1c :
    statusWord (writeReg .status 0xFFFFFFFF { loaded with
      errCode := .paddingValidationFailure, errSticky := true, wrIgnored := true, last := true }) = 0x00170024 := by
  decide +kernel

/-- S7 to S10: the interrupt output. -/
theorem test_irq :
    let s := { State.reset with irqEn := true }
    next? (exec .nop s) State.irq = some true ∧
    (writeReg .status 2 { s with done := true }).irq = false ∧ (writeReg .cmd 0 { s with done := true }).irq = false ∧
    (writeReg .config 0x80 { s with done := true }).irq = false := by decide +kernel

/-! ### Steps -/

/-- Each command word as the first command after reset: STATUS as the rules give it (rows N, K, B, A9, E9, E10, X2 of
95_test_vectors.md), and code 8 for a word that is no command. -/
theorem test_first_command :
    [(0, 0x00000002), (1, 0x00100006), (2, 0x00000002), (3, 0x00030042), (4, 0x00030042), (5, 0x00090042), (6, 0x00090042),
     (7, 0x00000002), (8, 0x00030042), (9, 0x00030042), (0x0A, 0x00080042), (0x100, 0x00080042)].all
      (fun (w, st) => next? (step (State.reset.withFetchWord 32 w)) statusWord == some st) = true := by decide +kernel

/-- S11: reset discards the pending command. -/
theorem test_reset_discards_pending :
    next? (step { pending 1 loaded with events := [.reset] }) id = some { State.reset with resp := .none } := by
  decide +kernel

/-- M3 through a step: a host's read of CONFIG. -/
theorem test_step_reads_config :
    step (readNext 0x08 State.reset) = .next { State.reset with resp := .data 0x00000080 } := by
  rw [step_of_read (s := readNext 0x08 State.reset) (rest := []) rfl (by decide)]
  exact congrArg _ (by decide +kernel)

/-- A host's write of CMD through a step issues the command. -/
theorem test_step_issues :
    step (writeNext 0x0C 0x00000003 loaded) = .next { pending 3 loaded with resp := .written } := by
  rw [step_of_write (s := writeNext 0x0C 0x00000003 loaded) (rest := []) rfl (by decide)]
  exact congrArg _ (by decide +kernel)

/-! ### Witnesses: values that meet the hypotheses of each statement that has some -/

theorem loaded_outputTailZero : loaded.OutputTailZero := by decide
theorem loaded_codesInRange : loaded.CodesInRange := by decide
theorem loaded_keyConsistent : loaded.KeyConsistent := by decide +kernel
theorem session_bits_ne_three (k : Session) : k.bits ≠ 3 := by cases k <;> decide

/-- A state of K_A loaded that meets the invariants, for every session, REMAIN and CHAIN that fit. -/
theorem inSession_inv (k : Session) (n : Word) (c : Block) (hd : k = .dec → 16 ≤ n.toNat ∧ n.toNat % 16 = 0)
    (hi : k = .idle → n = 0) : (inSession k n c).Inv where
  sessionNeedsKey := fun _ => rfl
  decryptRemainAligned := hd
  idleRemainsZero := hi
  outputTailZero := loaded_outputTailZero
  codesInRange := ⟨session_bits_ne_three k, loaded_codesInRange.2⟩
  keyConsistent := loaded_keyConsistent
  busyNotDone := by intro h; cases h

theorem loaded_inv : loaded.Inv := inSession_inv .idle 0 .zero (by simp) (by simp)

/-- K_A is the latched key of `loaded` and of the sessions on it. -/
theorem loaded_latchedKey : loaded.LatchedKey kA.toList := ⟨4, .inl ⟨rfl, rfl⟩, by decide +kernel⟩

theorem witness_DecodeAcceptsExactlyTheCommandWords :
    (pending 0x0000000A State.reset).busy = true ∧
      ∀ i, decode (pending 0x0000000A State.reset).rawBlockOps (pending 0x0000000A State.reset).pendCmd ≠ .ok i := by
  refine ⟨rfl, fun i => ?_⟩
  have h : decode true 0x0000000A = .error .reservedOpcode := by decide
  exact fun h' => by cases h.symm.trans h'

/-- One illegal word of each kind: the least with a bit of RSVD, the least reserved opcode, and AES_ENC without the raw block
commands. -/
theorem witness_IllegalWordsFailWithIllegalCommand :
    ({ pending 0x00000100 State.reset with events := [.engine] }.events = .engine :: [] ∧
      (pending 0x00000100 State.reset).busy = true ∧ IllegalWord true 0x00000100) ∧
    IllegalWord true 0x0000000A ∧ IllegalWord false 0x00000008 ∧ ¬IllegalWord true 0x00000009 := by
  unfold IllegalWord; decide

theorem witness_StepRunsThePendingCommand :
    let s := pending 0x00000009 loaded
    s.busy = true ∧ decode s.rawBlockOps s.pendCmd = .ok .aesDec ∧ s.events = [] ∧
      { s with events := [.engine] }.events = .engine :: [] := by decide

/-- Not pending; pending with a success; pending with an error that makes no other write. -/
theorem witness_CompletionWritesTheCompletionFields :
    loaded.busy = false ∧
    ((pending 0 loaded).busy = true ∧ engineMove (pending 0 loaded) = .next (completion .ok (pending 0 loaded))) ∧
    ((pending 5 loaded).busy = true ∧
      engineMove (pending 5 loaded) = .next (completion .sequenceError (pending 5 loaded))) := ⟨rfl, ⟨rfl, rfl⟩, rfl, rfl⟩

theorem witness_ResetLeavesTheResetValues :
    { pending 1 loaded with events := [.reset, .engine] }.events = .reset :: [.engine] := rfl

theorem witness_EveryStepKeepsTheInvariants :
    loaded.Inv ∧ ∃ t, step { loaded with events := [.reset] } = .next t ∧ step loaded = .next loaded :=
  ⟨loaded_inv, _, rfl, rfl⟩

theorem witness_EveryReachableStateMeetsTheInvariants :
    ∃ t, Host.Core.run Sys2Proof.core 1 { State.reset with rawBlockOps := false, events := [.engine] } = .next t := ⟨_, rfl⟩

/-- The last word of the window is in it. -/
theorem witness_InvariantStatesNeverStop :
    loaded.Inv ∧ (readNext 0xFF loaded).events = .read (Config.base + 0xFF) 4 :: [] ∧
      (Event.read (Config.base + 0xFF) 4).InWindow := ⟨loaded_inv, rfl, by simp [Event.InWindow]⟩

/-- Every offset of a clause, the last of each array among them, is the offset of a read that comes next. -/
theorem witness_ReadReturnsTheRegisterMap (off : Nat) :
    (readNext off State.reset).events = .read (Config.base + off) 4 :: [] ∧
      0x20 + 4 * 7 = 0x3C ∧ 0x40 + 4 * 3 = 0x4C ∧ 0x50 + 4 * 3 = 0x5C ∧ 0x60 + 4 * 3 = 0x6C ∧ 0x70 + 4 * 3 = 0x7C :=
  ⟨rfl, by decide⟩

/-- The same for writes, with a command pending and without, at the ends of the guarded and of the read-only ranges. -/
theorem witness_WriteFollowsTheRegisterMap (off : Nat) (v : Word) :
    (writeNext off v (pending 0 loaded)).events = .write (Config.base + off) 4 v :: [] ∧
    (writeNext off v (pending 0 loaded)).busy = true ∧ (writeNext off v loaded).busy = false ∧
    (∀ o ∈ [0x20, 0x5C], 0x20 ≤ o ∧ o ≤ 0x5C ∧ o % 4 = 0) ∧ (∀ o ∈ [0x60, 0x7C], 0x60 ≤ o ∧ o ≤ 0x7C ∧ o % 4 = 0) :=
  ⟨rfl, rfl, rfl, by decide, by decide⟩

theorem witness_CmdWriteIssuesTheCommand :
    (writeNext 0x0C 0x105 (pending 0 loaded)).events = .write (Config.base + 0x0C) 4 0x105 :: [] ∧
    (writeNext 0x0C 0x105 (pending 0 loaded)).busy = true ∧ (writeNext 0x0C 0x105 loaded).busy = false := ⟨rfl, rfl, rfl⟩

/-- The last offset of the window, read and written. -/
theorem witness_BusErrorsChangeNothing :
    0xFF ≤ 0xFF ∧ (readNext 0xFF loaded).events = .read (Config.base + 0xFF) 4 :: [] ∧
      (writeNext 0xFF 0 loaded).events = .write (Config.base + 0xFF) 4 0 :: [] := ⟨by decide, rfl, rfl⟩

/-- The first address past the window. -/
theorem witness_AccessOutsideTheWindowStops :
    (readNext 0x100 loaded).events = .read (Config.base + 0x100) 4 :: [] ∧ Config.base + 0xFF < Config.base + 0x100 :=
  ⟨rfl, by omega⟩

/-- Two reads, and two writes of MSG_LEN, in a row. -/
theorem witness_ReadsAndPlainWritesAreIdempotent :
    (∃ t u, step { loaded with events := [.read (Config.base + 0x10) 4, .read (Config.base + 0x10) 4] } = .next t ∧
      step t = .next u) ∧
    ∃ t u, step { loaded with events := [.write (Config.base + 0x14) 4 5, .write (Config.base + 0x14) 4 5] } = .next t ∧
      step t = .next u := by
  constructor
  · exact ⟨_, _, step_of_read rfl (by decide), step_of_read (off := 0x10) (size := 4) (rest := []) rfl (by decide)⟩
  · exact ⟨_, _, step_of_write rfl (by decide),
      step_of_write (off := 0x14) (size := 4) (v := 5) (rest := []) rfl (by decide)⟩

/-- Two accesses, a dropped write and a read, while a command is pending. -/
theorem witness_OperandsAreStableWhileBusy :
    let es : List Event := [.write (Config.base + 0x40) 4 7, .read (Config.base + 0x60) 4]
    let s := { pending 3 loaded with events := es ++ [] }
    s.busy = true ∧ (∀ e ∈ es, (∃ addr size, e = .read addr size) ∨ ∃ addr size v, e = .write addr size v) ∧
      s.events = es ++ [] ∧ ∃ t, Host.Core.run Sys2Proof.core es.length s = .next t := by
  intro es s
  have h₁ := step_of_write (s := s) (off := 0x40) (size := 4) (v := 7) (rest := [.read (Config.base + 0x60) 4]) rfl (by decide)
  have h₂ := step_of_read (s := writeWindow 0x40 4 7 { s with events := [.read (Config.base + 0x60) 4] })
    (off := 0x60) (size := 4) (rest := []) rfl (by decide)
  exact ⟨rfl, by simp [es], rfl, _, (run_succ_of_next 1 h₁).trans ((run_succ_of_next 0 h₂).trans (run_zero _))⟩

/-- A completion that changes ERR_CODE. -/
theorem witness_ResultsChangeOnlyAtCompletionOrReset :
    ∃ t, step (pending 5 loaded) = .next t ∧ t.errCode ≠ (pending 5 loaded).errCode := ⟨_, rfl, by decide⟩

theorem witness_IrqFollowsDoneAndEnable :
    (pending 0 loaded).busy = true ∧ (∃ t, engineMove (pending 0 loaded) = .next t) ∧ loaded.busy = false ∧
    (0x00000002 : Word).getLsbD 1 = true ∧ (0x00000080 : Word).getLsbD 16 = false := ⟨rfl, ⟨_, rfl⟩, rfl, by decide, by decide⟩

theorem witness_HostReadsRevealNoKeyMaterial :
    (readNext 0x20 loaded).events = .read (Config.base + 0x20) 4 :: [] ∧ ∃ t, step (readNext 0x20 loaded) = .next t :=
  ⟨rfl, _, step_of_read rfl (by decide)⟩

theorem witness_HostBlockSequenceRunsTheCommand :
    let s := { loaded with events := setDinMoves p1 ++ commandMoves .aesEnc ++ [] }
    s.busy = false ∧ Instr.aesEnc.wellFormed s.rawBlockOps = true ∧
      ∃ t, exec .nop { s with
        din := p1, pendCmd := encode .nop, busy := true, done := false, resp := .written, events := [] } = .next t :=
  ⟨rfl, rfl, _, rfl⟩

/-- A length that is not supported, and the three that are. -/
theorem witness_KeyInitLoadsTheLatch :
    ({ loaded with keyBits := 100 }.keyBits.toNat ≠ 128 ∧ { loaded with keyBits := 100 }.keyBits.toNat ≠ 192 ∧
      { loaded with keyBits := 100 }.keyBits.toNat ≠ 256) ∧
    State.reset.keyBits.toNat = 32 * 4 ∧ { State.reset with keyBits := 192 }.keyBits.toNat = 32 * 6 ∧
    { State.reset with keyBits := 256 }.keyBits.toNat = 32 * 8 := by decide

/-- A key taken by KEY_INIT from a state without one; and a state without one that meets the invariants. -/
theorem witness_KeyClearDestroysTheKey :
    ((pending 1 State.reset).keyValid = false ∧ ∃ t, step (pending 1 State.reset) = .next t ∧ t.keyValid = true) ∧
    State.reset.keyValid = false ∧ State.reset.rawBlockOps = true := ⟨⟨rfl, _, rfl, rfl⟩, rfl, rfl⟩

/-- The reset state meets the invariants, and has no key and no pending command. -/
theorem reset_inv : State.reset.Inv where
  sessionNeedsKey := by decide
  decryptRemainAligned := by decide
  idleRemainsZero := by decide
  outputTailZero := by decide
  codesInRange := by decide
  keyConsistent := by decide +kernel
  busyNotDone := by decide

theorem witness_SoftwareResetReachesTheResetState : (inSession .dec 16 c1).busy = false := rfl

theorem witness_EncStartOpensASession : State.reset.keyValid = false ∧ loaded.keyValid = true := ⟨rfl, rfl⟩

/-- No session; 16 bytes remaining; 15 and none remaining. -/
theorem witness_EncBlockEncryptsAndPads :
    loaded.session ≠ .enc ∧
    (∀ n : Word, (inSession .enc n c1).Inv ∧ (inSession .enc n c1).session = .enc) ∧
    16 ≤ (inSession .enc 16 c1).remain.toNat ∧ (inSession .enc 15 c1).remain.toNat < 16 ∧
    (inSession .enc 0 c1).remain.toNat < 16 :=
  ⟨by decide, fun n => ⟨inSession_inv .enc n c1 (by simp) (by simp), rfl⟩, by decide, by decide, by decide⟩

/-- No key; lengths 0, 15 and 17 refused; lengths 16 and 0xFFFFFFF0 accepted. -/
theorem witness_DecStartChecksAndOpensASession :
    State.reset.keyValid = false ∧ loaded.keyValid = true ∧ (0 : Word).toNat = 0 ∧
    (15 : Word).toNat % 16 ≠ 0 ∧ (17 : Word).toNat % 16 ≠ 0 ∧
    (0 < (16 : Word).toNat ∧ (16 : Word).toNat % 16 = 0) ∧
    0 < (0xFFFFFFF0 : Word).toNat ∧ (0xFFFFFFF0 : Word).toNat % 16 = 0 := by decide

/-- No session; 32 bytes remaining; 16 remaining with a padding of 16, of 1, and with none that is valid (V4, V1, V6). -/
theorem witness_DecBlockDecryptsAndValidates :
    loaded.session ≠ .dec ∧
    ((inSession .dec 32 c1).Inv ∧ 16 < (inSession .dec 32 c1).remain.toNat) ∧
    ((inSession .dec 16 c1).Inv ∧ (inSession .dec 16 c1).remain.toNat = 16) ∧
    PaddedBy (blk 0x10101010101010101010101010101010) 16 ∧ PaddedBy (blk 0x00112233445566778899aabbccddee01) 1 ∧
    ∀ p, ¬PaddedBy (blk 0x00112233445566778899aabbccddee00) p := by
  refine ⟨by decide, ⟨inSession_inv .dec 32 c1 (by decide) (by simp), by decide⟩,
    ⟨inSession_inv .dec 16 c1 (by decide) (by simp), by decide⟩, by unfold PaddedBy; decide +kernel,
    by unfold PaddedBy; decide +kernel, fun p hp => ?_⟩
  have h : ∀ p ≤ 16, 1 ≤ p → (blk 0x00112233445566778899aabbccddee00).toList.drop (16 - p) ≠
      List.replicate p (BitVec.ofNat 8 p) := by decide +kernel
  exact h p hp.2.1 hp.1 hp.2.2

/-- The blocks of the witness above are what DEC_BLOCK decrypts: DIN = 0 and CHAIN = the IV of rows V4, V1 and V6. -/
theorem witness_DecBlockDecryptsAndValidates_decrypted :
    [(0xbda627415cda2982343cc8a74dad1ac5, 0x10101010101010101010101010101010),
     (0xada71562089f5fe5acb5720c9160e4d4, 0x00112233445566778899aabbccddee01),
     (0xada71562089f5fe5acb5720c9160e4d5, 0x00112233445566778899aabbccddee00)].all
      (fun (v, x) => (aesDecrypt kA.toList .zero).xor (blk v) == blk x) = true := by decide +kernel

theorem witness_RawBlockCommandsTransformDin :
    (State.reset.rawBlockOps = true ∧ State.reset.keyValid = false) ∧
    (loaded.Inv ∧ loaded.rawBlockOps = true ∧ loaded.keyValid = true) ∧
    { loaded with rawBlockOps := false }.rawBlockOps = false := ⟨⟨rfl, rfl⟩, ⟨loaded_inv, rfl, rfl⟩, rfl⟩

/-- Idle with a key and without one, each kind of session at its boundary, and an illegal word. -/
theorem witness_CommandAcceptanceBySession :
    (loaded.Inv ∧ loaded.keyValid = true ∧ loaded.session ≠ .enc ∧ loaded.session ≠ .dec ∧ loaded.keyBits ∈ [128, 192, 256]) ∧
    ((inSession .enc 16 c1).Inv ∧ (inSession .enc 16 c1).session = .enc) ∧
    ((inSession .enc 15 c1).Inv ∧ (inSession .enc 15 c1).remain.toNat < 16) ∧
    ((inSession .dec 16 c1).Inv ∧ (inSession .dec 16 c1).session = .dec) ∧
    ((inSession .dec 32 c1).Inv ∧ (inSession .dec 32 c1).remain.toNat ≠ 16) ∧
    (State.reset.keyValid = false ∧ State.reset.keyBits ∉ [100]) ∧
    ((pending 0xFF loaded).busy = true ∧ IllegalWord true 0xFF) :=
  ⟨⟨loaded_inv, by decide⟩, ⟨inSession_inv .enc 16 c1 (by simp) (by simp), rfl⟩,
    ⟨inSession_inv .enc 15 c1 (by simp) (by simp), by decide⟩, ⟨inSession_inv .dec 16 c1 (by decide) (by simp), rfl⟩,
    ⟨inSession_inv .dec 32 c1 (by decide) (by simp), by decide⟩, by decide, rfl, by unfold IllegalWord; decide⟩

/-- A pending command for each code that one reports, but for code 7 (`test_decBlock_final`). -/
theorem witness_EachCodeHasItsCommandAndCondition :
    [(pending 0 loaded, 0), (pending 1 { loaded with keyBits := 129 }, 1), (pending 9 State.reset, 3),
     (pending 4 { loaded with msgLen := 15 }, 5), (pending 0x0A loaded, 8), (pending 6 (inSession .enc 16 c1), 9)].all
      (fun (s, c) => s.busy && (next? (engineMove s) (·.errCode.code) == some c)) = true := by decide +kernel

/-- Both kinds of session; a start command; a command that leaves LAST; an illegal word. -/
theorem witness_LastMarksTheFinalBlock :
    ((inSession .enc 15 c1).session = .enc ∧ ∃ t, exec .encBlock (inSession .enc 15 c1) = .next t) ∧
    (∃ t, exec .decBlock (inSession .dec 32 c1) = .next t) ∧
    (∃ t, exec .encStart loaded = .next t ∧ t.errCode = .ok) ∧ (∃ t, exec .keyInit loaded = .next t) ∧
    (pending 0xFF loaded).busy = true ∧ IllegalWord true 0xFF ∧ ∃ t, engineMove (pending 0xFF loaded) = .next t :=
  ⟨⟨rfl, _, rfl⟩, ⟨_, rfl⟩, ⟨_, rfl, rfl⟩, ⟨_, rfl⟩, rfl, by unfold IllegalWord; decide, _, rfl⟩

theorem witness_OnlyKeyCommandsAndResetChangeTheLatch :
    (∃ t, step (pending 1 State.reset) = .next t ∧ t.klen ≠ (pending 1 State.reset).klen) ∧
    ∃ t, step { loaded with events := [.reset] } = .next t ∧ t.keyValid ≠ loaded.keyValid :=
  ⟨⟨_, rfl, by decide⟩, _, rfl, by decide⟩

theorem witness_CommandsNeverWriteTheHostsRegisters :
    (∃ t, exec .keyClear loaded = .next t) ∧ Instr.abort ≠ .keyClear ∧ ∃ t, exec .abort loaded = .next t :=
  ⟨⟨_, rfl⟩, by decide, _, rfl⟩

theorem witness_KeyWritesReachOnlyKeyInit : Instr.encStart ≠ .keyInit ∧ ∃ t, exec .encStart loaded = .next t :=
  ⟨by decide, _, rfl⟩

theorem witness_IvAndLengthReachOnlyStartCommands :
    Instr.encBlock ≠ .encStart ∧ Instr.encBlock ≠ .decStart ∧ ∃ t, exec .encBlock (inSession .enc 16 c1) = .next t :=
  ⟨by decide, by decide, _, rfl⟩

theorem witness_AesDecryptInvertsEncrypt :
    (hexBytes 16 1).length = 16 ∧ (hexBytes 24 1).length = 24 ∧ (hexBytes 32 1).length = 32 := by decide

theorem witness_DifferentIvsGiveDifferentFirstBlocks : kA.toList.length = 16 ∧ Block.zero ≠ ivA := by decide +kernel

/-- The empty message, held by a block of anything, and a full block, held by itself and a block of anything. -/
theorem witness_EncryptionSessionComputesCbcOfPaddedMessage :
    loaded.keyValid = true ∧ loaded.LatchedKey kA.toList ∧ ([] : List Byte).length < 2 ^ 32 ∧ HoldMessage [c1] [] ∧
      p1.toList.length < 2 ^ 32 ∧ HoldMessage [p1, c1] p1.toList := by
  refine ⟨rfl, loaded_latchedKey, by decide, ⟨rfl, fun i j _ h => absurd h (by simp)⟩, by decide, rfl, ?_⟩
  intro i j hj h
  have hi : i = 0 := by simp at h; omega
  subst hi
  have key : ∀ j < 16, p1.get j = p1.toList.getD j 0 := by decide +kernel
  simpa using key j hj

/-- The hypotheses of `OnTheBus`, which ends the statements about both sessions. -/
theorem witness_OnTheBus :
    let evs := startMoves .encStart ivA 0 ++ blockMoves .encBlock [c1] ++ []
    loaded.busy = false ∧ { loaded with events := evs }.events = evs := ⟨rfl, rfl⟩

/-- One block; the second of its clauses needs two. -/
theorem witness_DecryptionSessionComputesDecrypt :
    loaded.keyValid = true ∧ loaded.LatchedKey kA.toList ∧ [c1] ≠ [] ∧ 16 * [c1].length < 2 ^ 32 ∧ 0 + 1 < [c1, c2].length :=
  ⟨rfl, loaded_latchedKey, by simp, by decide, by decide⟩

theorem witness_RoundTripRecoversTheMessage :
    kA.toList.length = 16 ∧ loaded.keyValid = true ∧ loaded.LatchedKey kA.toList ∧ 16 * (([] : List Byte).length / 16 + 1) < 2 ^ 32 ∧
      HoldMessage [c1] [] :=
  ⟨rfl, rfl, loaded_latchedKey, by decide, rfl, fun i j _ h => absurd h (by simp)⟩

/-- Sixteen zero bytes are not the ciphertext of the empty message (row L = 0 of 2.1), nor is their block. -/
theorem witness_TamperedCiphertextIsNotTheMessage :
    kA.toList.length = 16 ∧ Block.zero.toList.length = (bytesOf (encryptMessage kA.toList ivA [])).length ∧
      Block.zero.toList ≠ bytesOf (encryptMessage kA.toList ivA []) ∧ 16 * [Block.zero].length < 2 ^ 32 ∧
      [Block.zero].length = (encryptMessage kA.toList ivA []).length ∧
      [Block.zero] ≠ encryptMessage kA.toList ivA [] := by decide +kernel

end Sys2Proof.Tests
end

/-! # The invariants of R41: every step keeps them, and a state that meets them never stops (O7 to O11) -/

namespace Sys2Proof.Machine

/-! ### Facts the invariants are built from -/

/-- Of (e) the types leave nothing to prove: SESSION and ERR_CODE have no other values (log 12). -/
theorem State.codesInRange (s : State) : s.CodesInRange :=
  ⟨by cases s.session <;> decide, by cases s.errCode <;> decide⟩

/-- A full block of output has no tail (R37). -/
theorem outputTailZero_of_outLen_eq_16 {s : State} (h : s.outLen = 16) : s.OutputTailZero := by
  have h16 : s.outLen.toNat = 16 := by simp [h]
  exact ⟨by omega, fun i _ _ => by omega⟩

/-- An output of zeros is zero from any OUT_LEN up to 16 on (R37). -/
theorem outputTailZero_of_dout_eq_zero {s : State} (hl : s.outLen.toNat ≤ 16) (hd : s.dout = .zero) :
    s.OutputTailZero :=
  ⟨hl, fun i _ _ => by simp [hd]⟩

/-- OUT_LEN of a stripped block, as a number (R111). -/
theorem toNat_strippedLength (p : Nat) : (BitVec.ofNat 5 (16 - p)).toNat = 16 - p := by
  rw [BitVec.toNat_ofNat, Nat.mod_eq_of_lt (by omega)]

/-- The stripped block is zero from its length on (R107, R111). -/
theorem stripPadding_get_of_le {x : Block} {i : Nat} (hi : i < 16) (h : 16 - padValue x ≤ i) :
    (stripPadding x).get i = 0 := by
  rw [stripPadding, Block.get_ofFn _ hi, if_neg (by omega)]

/-- DEC_BLOCK's subtraction does not go below 0 (R11, R111). -/
theorem toNat_remain_sub_16 {r : Word} (h : 16 ≤ r.toNat) : (r - 16).toNat = r.toNat - 16 := by
  rw [BitVec.toNat_sub_of_le (by simpa [BitVec.le_def] using h)]; rfl

/-- The latch that KEY_INIT loads agrees with the length it stores (R93, R41 (f)). -/
theorem keyConsistent_of_loaded {s : State} {b : KeyBytes} {nk : Nat} (hw : s.klen.words = some nk)
    (hv : s.keyValid = true) (hl : s.keyLat = b.keepQuads nk) : s.KeyConsistent := by
  refine ⟨⟨fun _ hn => by simp [hn, KLen.words] at hw, fun _ => hv⟩, fun i hi h => ?_⟩
  simp only [hw, Option.getD_some] at h
  rw [hl, KeyBytes.keepQuads_get _ _ hi, if_neg (by omega)]

/-! ### What keeps the invariants -/

/-- The invariants do not speak of the schedule (log 3). -/
theorem State.Inv.withEvents {s : State} (h : s.Inv) (es : List Event) : { s with events := es }.Inv := { h with }

/-- The invariants do not speak of the host's last answer (log 5). -/
theorem State.Inv.withResp {s : State} (h : s.Inv) (r : BusResponse) : { s with resp := r }.Inv := { h with }

/-- The completion fields meet (e) and (g) by themselves, so (a) to (d) and (f) of the state before are enough (R67). -/
theorem completion_inv {s : State} (e : ErrCode) (ha : s.SessionNeedsKey) (hb : s.DecryptRemainAligned)
    (hc : s.IdleRemainsZero) (hd : s.OutputTailZero) (hf : s.KeyConsistent) : (completion e s).Inv :=
  ⟨ha, hb, hc, hd, State.codesInRange _, hf, fun hbusy => by simp at hbusy⟩

/-- A completion that makes no other write, as every precise failure is (R135). -/
theorem State.Inv.completion {s : State} (h : s.Inv) (e : ErrCode) : (completion e s).Inv :=
  completion_inv e h.sessionNeedsKey h.decryptRemainAligned h.idleRemainsZero h.outputTailZero h.keyConsistent

/-- A command that ends any session keeps (a) to (c) whatever it does to the key (R28). -/
theorem completion_endSession_inv {s : State} (e : ErrCode) (hd : s.OutputTailZero) (hf : s.KeyConsistent) :
    (completion e (endSession s)).Inv :=
  completion_inv e (fun hs => absurd rfl hs) (fun hs => by simp at hs) (fun _ => rfl) hd hf

/-- A start command opens its session on a key, and for a decryption on a positive multiple of 16 bytes (R100, R110). -/
theorem completion_openSession_inv {s : State} {k : Session} (h : s.Inv) (hk : s.keyValid = true) (hidle : k ≠ .idle)
    (hdec : k = .dec → 16 ≤ s.msgLen.toNat ∧ s.msgLen.toNat % 16 = 0) :
    (completion .ok (openSession k s)).Inv :=
  completion_inv .ok (fun _ => hk) hdec (fun hs => absurd hs hidle)
    (outputTailZero_of_dout_eq_zero (by simp) rfl) h.keyConsistent

/-- A raw block command puts out a full block and leaves the session alone (R91, R92). -/
theorem completion_rawOutput_inv {s : State} (h : s.Inv) (b : Block) :
    (completion .ok (rawOutput b s)).Inv :=
  completion_inv .ok h.sessionNeedsKey h.decryptRemainAligned h.idleRemainsZero
    (outputTailZero_of_outLen_eq_16 rfl) h.keyConsistent

/-! ### Every command keeps the invariants -/

theorem execKeyInit_keeps_inv {s t : State} (h : s.Inv) (hx : execKeyInit s = .next t) : t.Inv := by
  obtain ⟨-, rfl⟩ | ⟨nk, hw, rfl⟩ := execKeyInit_next hx
  · exact h.completion _
  · exact completion_endSession_inv _ h.outputTailZero (keyConsistent_of_loaded hw rfl rfl)

theorem execKeyClear_keeps_inv {s t : State} (h : s.Inv) (hx : execKeyClear s = .next t) : t.Inv := by
  obtain rfl := execKeyClear_next hx
  exact completion_endSession_inv _ h.outputTailZero ⟨by simp, fun i _ _ => by simp⟩

theorem execAbort_keeps_inv {s t : State} (h : s.Inv) (hx : execAbort s = .next t) : t.Inv := by
  obtain rfl := execAbort_next hx
  exact completion_endSession_inv (s := { s with chain := .zero, dout := .zero, outLen := 0, last := false }) _
    (outputTailZero_of_dout_eq_zero (by simp) rfl) h.keyConsistent

theorem execEncStart_keeps_inv {s t : State} (h : s.Inv) (hx : execEncStart s = .next t) : t.Inv := by
  obtain ⟨hk, rfl⟩ | ⟨-, rfl⟩ := execEncStart_next hx
  · exact completion_openSession_inv h hk (by simp) (by simp)
  · exact h.completion _

theorem execDecStart_keeps_inv {s t : State} (h : s.Inv) (hx : execDecStart s = .next t) : t.Inv := by
  obtain ⟨hk, hpos, hmul, rfl⟩ | ⟨-, -, rfl⟩ | ⟨-, rfl⟩ := execDecStart_next hx
  · exact completion_openSession_inv h hk (by simp) fun _ => ⟨by omega, hmul⟩
  · exact h.completion _
  · exact h.completion _

theorem execEncBlock_keeps_inv {s t : State} (h : s.Inv) (hx : execEncBlock s = .next t) : t.Inv := by
  obtain ⟨-, rfl⟩ | ⟨hs, k, c, -, ⟨-, -, rfl⟩ | ⟨-, -, rfl⟩⟩ := execEncBlock_next hx
  · exact h.completion _
  · exact completion_inv _ h.sessionNeedsKey (fun hd => by simp [hs] at hd) (fun hi => by simp [hs] at hi)
      (outputTailZero_of_outLen_eq_16 rfl) h.keyConsistent
  · exact completion_inv _ (fun hi => absurd rfl hi) (fun hd => by simp at hd) (fun _ => rfl)
      (outputTailZero_of_outLen_eq_16 rfl) h.keyConsistent

theorem execDecBlock_keeps_inv {s t : State} (h : s.Inv) (hx : execDecBlock s = .next t) : t.Inv := by
  obtain ⟨-, rfl⟩ | ⟨hs, hr, k, x, -, -, ⟨hgt, rfl⟩ | ⟨heq, -, rfl⟩ | ⟨heq, -, rfl⟩⟩ := execDecBlock_next hx
  · exact h.completion _
  · have hsub := toNat_remain_sub_16 hr
    obtain ⟨-, hmod⟩ := h.decryptRemainAligned hs
    exact completion_inv _ h.sessionNeedsKey (fun _ => ⟨by dsimp only; omega, by dsimp only; omega⟩)
      (fun hi => by simp [hs] at hi) (outputTailZero_of_outLen_eq_16 rfl) h.keyConsistent
  · exact completion_inv _ (fun hi => absurd rfl hi) (fun hd => by simp at hd)
      (fun _ => sub_eq_zero.mpr (BitVec.eq_of_toNat_eq heq))
      ⟨by simp only [toNat_strippedLength]; omega,
        fun i hi hle => stripPadding_get_of_le hi (by simpa only [toNat_strippedLength] using hle)⟩
      h.keyConsistent
  · exact completion_inv _ (fun hi => absurd rfl hi) (fun hd => by simp at hd)
      (fun _ => sub_eq_zero.mpr (BitVec.eq_of_toNat_eq heq))
      (outputTailZero_of_dout_eq_zero (by simp) rfl) h.keyConsistent

theorem execAesEnc_keeps_inv {s t : State} (h : s.Inv) (hx : execAesEnc s = .next t) : t.Inv := by
  obtain ⟨-, rfl⟩ | ⟨-, -, rfl⟩ | ⟨-, -, k, -, rfl⟩ := execAesEnc_next hx
  · exact h.completion _
  · exact h.completion _
  · exact completion_rawOutput_inv h _

theorem execAesDec_keeps_inv {s t : State} (h : s.Inv) (hx : execAesDec s = .next t) : t.Inv := by
  obtain ⟨-, rfl⟩ | ⟨-, -, rfl⟩ | ⟨-, -, k, -, rfl⟩ := execAesDec_next hx
  · exact h.completion _
  · exact h.completion _
  · exact completion_rawOutput_inv h _

/-- Every command's completion keeps the invariants, whatever BUSY is (log 15). -/
theorem exec_keeps_inv {i : Instr} {s t : State} (h : s.Inv) (hx : exec i s = .next t) : t.Inv := by
  cases i with
  | nop => rw [execNop_next hx]; exact h.completion _
  | keyInit => exact execKeyInit_keeps_inv h hx
  | keyClear => exact execKeyClear_keeps_inv h hx
  | encStart => exact execEncStart_keeps_inv h hx
  | decStart => exact execDecStart_keeps_inv h hx
  | encBlock => exact execEncBlock_keeps_inv h hx
  | decBlock => exact execDecBlock_keeps_inv h hx
  | abort => exact execAbort_keeps_inv h hx
  | aesEnc => exact execAesEnc_keeps_inv h hx
  | aesDec => exact execAesDec_keeps_inv h hx

/-! ### Every move and every step keeps them -/

theorem engineMove_keeps_inv {s t : State} (h : s.Inv) (hm : engineMove s = .next t) : t.Inv := by
  obtain ⟨-, rfl⟩ | ⟨-, i, -, hx⟩ | ⟨-, -, rfl⟩ := engineMove_next hm
  · exact h
  · exact exec_keeps_inv h hx
  · exact h.completion _

/-- No register write sets DONE, and an issue clears it (R53, R66, R41 (g)). -/
theorem writeReg_busyNotDone {s : State} (h : s.BusyNotDone) (r : Reg) (v : Word) : (writeReg r v s).BusyNotDone := by
  intro hb'
  cases hb : s.busy with
  | true => obtain e | e | e := writeReg_of_busy r v hb <;> simp [e, h hb]
  | false => cases r <;> simp_all [writeReg]

/-- A host's register write keeps the invariants: all but (g) are about fields it leaves alone (R53, R151). -/
theorem State.Inv.writeReg {s : State} (h : s.Inv) (r : Reg) (v : Word) : (writeReg r v s).Inv := by
  obtain ⟨hremain, hvalid, hsession, -, hlen, -, hklen, hdout, -, hlat, -⟩ := writeReg_frame r v s
  exact {
    sessionNeedsKey := by simpa only [SessionNeedsKey, hsession, hvalid] using h.sessionNeedsKey
    decryptRemainAligned := by simpa only [DecryptRemainAligned, hsession, hremain] using h.decryptRemainAligned
    idleRemainsZero := by simpa only [IdleRemainsZero, hsession, hremain] using h.idleRemainsZero
    outputTailZero := by simpa only [OutputTailZero, hlen, hdout] using h.outputTailZero
    codesInRange := State.codesInRange _
    keyConsistent := by simpa only [KeyConsistent, hvalid, hklen, hlat] using h.keyConsistent
    busyNotDone := writeReg_busyNotDone h.busyNotDone r v }

theorem readWindow_keeps_inv {s : State} (h : s.Inv) (off size : Nat) : (readWindow off size s).Inv := by
  unfold readWindow
  split <;> exact h.withResp _

theorem writeWindow_keeps_inv {s : State} (h : s.Inv) (off size : Nat) (v : Word) : (writeWindow off size v s).Inv := by
  obtain ⟨-, e⟩ | ⟨r, -, e⟩ := writeWindow_cases off size v s
  · rw [e]; exact h.withResp _
  · rw [e]; exact (h.writeReg r v).withResp _

/-- After a reset the invariants hold, whatever came before (R42, R143). -/
theorem resetCore_inv (s : State) : (resetCore s).Inv where
  sessionNeedsKey hs := absurd rfl hs
  decryptRemainAligned hs := by cases hs
  idleRemainsZero _ := rfl
  outputTailZero := outputTailZero_of_dout_eq_zero (by simp [State.reset]) rfl
  codesInRange := State.codesInRange _
  keyConsistent := ⟨by simp [State.reset], fun i _ _ => KeyBytes.zero_get i⟩
  busyNotDone _ := rfl

/-- A step of any agent keeps the invariants. -/
theorem step_keeps_inv {s t : State} (h : s.Inv) (hs : step s = .next t) : t.Inv := by
  obtain ⟨-, hm⟩ | ⟨rest, ⟨-, hm⟩ | ⟨-, rfl⟩ | ⟨addr, size, -, hm⟩ | ⟨addr, size, v, -, hm⟩⟩ := step_next hs
  · exact engineMove_keeps_inv h hm
  · exact engineMove_keeps_inv (h.withEvents rest) hm
  · exact resetCore_inv _
  · obtain ⟨off, -, rfl⟩ := hostRead_next hm
    exact readWindow_keeps_inv (h.withEvents rest) off size
  · obtain ⟨off, -, rfl⟩ := hostWrite_next hm
    exact writeWindow_keeps_inv (h.withEvents rest) off size v

/-- A run of any length keeps the invariants. -/
theorem run_keeps_inv {n : Nat} {s t : State} (h : s.Inv) (hr : Host.Core.run Sys2Proof.core n s = .next t) : t.Inv := by
  induction n generalizing s with
  | zero => cases hr; exact h
  | succ n ih =>
    obtain ⟨u, hs, hu⟩ := run_succ_next hr
    exact ih (step_keeps_inv h hs) hu

/-! ### Progress -/

/-- With a key loaded, the cipher commands have their key operand (R30, R41 (f)). -/
theorem State.Inv.exists_cipherKey {s : State} (h : s.Inv) (hk : s.keyValid = true) : ∃ k, cipherKey s = some k :=
  Option.isSome_iff_exists.mp ((cipherKey_isSome_iff s).mpr (h.keyConsistent.1.mp hk))

/-- An open session has its key operand (R41 (a), (f)). -/
theorem State.Inv.exists_cipherKey_of_session {s : State} (h : s.Inv) (hs : s.session ≠ .idle) :
    ∃ k, cipherKey s = some k := h.exists_cipherKey (h.sessionNeedsKey hs)

theorem execKeyInit_progress (s : State) : ∃ t, execKeyInit s = .next t := by
  unfold execKeyInit
  dsimp only
  split <;> exact ⟨_, rfl⟩

theorem execEncStart_progress (s : State) : ∃ t, execEncStart s = .next t := by
  unfold execEncStart
  split <;> exact ⟨_, rfl⟩

theorem execDecStart_progress (s : State) : ∃ t, execDecStart s = .next t := by
  unfold execDecStart
  split
  · split <;> exact ⟨_, rfl⟩
  · exact ⟨_, rfl⟩

theorem execEncBlock_progress {s : State} (h : s.Inv) : ∃ t, execEncBlock s = .next t := by
  unfold execEncBlock
  split
  next hs =>
    obtain ⟨k, hk⟩ := h.exists_cipherKey_of_session (by simp [hs])
    rw [withCipherKey_of_some hk]
    split <;> exact ⟨_, rfl⟩
  next => exact ⟨_, rfl⟩

/-- In a decryption session REMAIN is at least 16 (R41 (b)), so DEC_BLOCK does not underflow. -/
theorem execDecBlock_progress {s : State} (h : s.Inv) : ∃ t, execDecBlock s = .next t := by
  unfold execDecBlock
  split
  next hs =>
    obtain ⟨k, hk⟩ := h.exists_cipherKey_of_session (by simp [hs])
    obtain ⟨hge, -⟩ := h.decryptRemainAligned hs
    rw [withCipherKey_of_some hk, if_neg (by omega)]
    dsimp only
    split
    · exact ⟨_, rfl⟩
    · split <;> exact ⟨_, rfl⟩
  next => exact ⟨_, rfl⟩

theorem execAesEnc_progress {s : State} (h : s.Inv) : ∃ t, execAesEnc s = .next t := by
  unfold execAesEnc
  split_ifs with _ hv
  · obtain ⟨k, hk⟩ := h.exists_cipherKey hv
    exact ⟨_, withCipherKey_of_some hk _⟩
  · exact ⟨_, rfl⟩
  · exact ⟨_, rfl⟩

theorem execAesDec_progress {s : State} (h : s.Inv) : ∃ t, execAesDec s = .next t := by
  unfold execAesDec
  split_ifs with _ hv
  · obtain ⟨k, hk⟩ := h.exists_cipherKey hv
    exact ⟨_, withCipherKey_of_some hk _⟩
  · exact ⟨_, rfl⟩
  · exact ⟨_, rfl⟩

/-- In a state that meets the invariants every command completes, with success or with a code (R120). -/
theorem exec_progress (i : Instr) {s : State} (h : s.Inv) : ∃ t, exec i s = .next t := by
  cases i with
  | nop => exact ⟨_, rfl⟩
  | keyInit => exact execKeyInit_progress s
  | keyClear => exact ⟨_, rfl⟩
  | encStart => exact execEncStart_progress s
  | decStart => exact execDecStart_progress s
  | encBlock => exact execEncBlock_progress h
  | decBlock => exact execDecBlock_progress h
  | abort => exact ⟨_, rfl⟩
  | aesEnc => exact execAesEnc_progress h
  | aesDec => exact execAesDec_progress h

/-- The engine runs the command that the pending word decodes to (R67). -/
theorem engineMove_of_decode_ok {s : State} {i : Instr} (hb : s.busy = true)
    (hd : decode s.rawBlockOps s.pendCmd = .ok i) : engineMove s = exec i s := by
  simp [engineMove, hb, hd]

/-- A pending word that is no command completes with IllegalCommand (R69). -/
theorem engineMove_of_decode_error {s : State} {e : Reject} (hb : s.busy = true)
    (hd : decode s.rawBlockOps s.pendCmd = .error e) : engineMove s = .next (completion .illegalCommand s) := by
  simp [engineMove, hb, hd, raise]

/-- With no command pending the engine's turn changes nothing (R142, log 4). -/
theorem engineMove_of_idle {s : State} (hb : s.busy = false) : engineMove s = .next s := by simp [engineMove, hb]

theorem engineMove_progress {s : State} (h : s.Inv) : ∃ t, engineMove s = .next t := by
  cases hb : s.busy with
  | false => exact ⟨s, engineMove_of_idle hb⟩
  | true =>
    cases hd : decode s.rawBlockOps s.pendCmd with
    | ok i => rw [engineMove_of_decode_ok hb hd]; exact exec_progress i h
    | error e => exact ⟨_, engineMove_of_decode_error hb hd⟩

/-- An address of the window is an offset below 0x100 from BASE (R44). -/
theorem exists_offset_of_inWindow {addr : Nat} (h : Config.base ≤ addr ∧ addr ≤ Config.base + 0xFF) :
    ∃ off < 0x100, addr = Config.base + off := ⟨addr - Config.base, by omega, by omega⟩

/-- A move that makes no access outside the window answers a next state. -/
theorem move_progress {e : Event} {s : State} (h : s.Inv) (he : e.InWindow) : ∃ t, move e s = .next t := by
  cases e with
  | read addr size =>
    obtain ⟨off, hoff, rfl⟩ := exists_offset_of_inWindow he
    exact ⟨_, hostRead_base_add hoff size s⟩
  | write addr size v =>
    obtain ⟨off, hoff, rfl⟩ := exists_offset_of_inWindow he
    exact ⟨_, hostWrite_base_add hoff size v s⟩
  | engine => exact engineMove_progress h
  | reset => exact ⟨_, rfl⟩

theorem step_progress {s : State} (h : s.Inv) (he : ∀ e rest, s.events = e :: rest → e.InWindow) :
    ∃ t, step s = .next t := by
  cases hs : s.events with
  | nil => rw [step_of_nil hs]; exact engineMove_progress h
  | cons e rest => rw [step_of_cons hs]; exact move_progress (h.withEvents rest) (he e rest hs)

/-! ### The statements -/

/-- Settles O9: each move of `step_next` keeps each of (a) to (g). -/
theorem everyStepKeepsTheInvariants : Obligations.EveryStepKeepsTheInvariants := fun _ _ h hs => step_keeps_inv h hs

/-- Settles O11: progress by the cases of the next move, preservation by O9's step lemma. -/
theorem invariantStatesNeverStop : Obligations.InvariantStatesNeverStop := by
  intro s h he
  obtain ⟨t, ht⟩ := step_progress h he
  exact ⟨t, ht, step_keeps_inv h ht⟩

/-- Settles O8: the reset state in either build and under any schedule is what a reset move leaves. -/
theorem resetStateMeetsTheInvariants : Obligations.ResetStateMeetsTheInvariants :=
  ⟨resetCore_inv .reset, fun raw evs => resetCore_inv { State.reset with rawBlockOps := raw, events := evs }⟩

/-- Settles O10, by induction on the number of steps. -/
theorem everyReachableStateMeetsTheInvariants : Obligations.EveryReachableStateMeetsTheInvariants :=
  fun raw evs _ _ hr => run_keeps_inv (resetStateMeetsTheInvariants.2 raw evs) hr

/-- Settles O5: the move is taken off the schedule and made; with none left the turn is the engine's. -/
theorem stepRunsThePendingCommand : Obligations.StepRunsThePendingCommand := by
  intro s i hb hd
  refine ⟨fun hs => ?_, fun rest hs => ?_⟩
  · rw [step_of_nil hs, engineMove_of_decode_ok hb hd]
  · rw [step_of_cons hs]
    exact engineMove_of_decode_ok (s := { s with events := rest }) hb hd

/-- Settles O7: the step is `resetCore`, whose fields are those of `State.reset`. -/
theorem resetLeavesTheResetValues : Obligations.ResetLeavesTheResetValues := by
  intro s rest hs
  exact ⟨resetCore { s with events := rest }, step_of_cons hs,
    rfl, rfl, rfl, rfl, rfl, rfl, rfl, rfl, rfl, rfl, rfl, rfl, rfl, rfl,
    fun i _ => ⟨KeyBytes.zero_get i, KeyBytes.zero_get i⟩,
    fun i _ => ⟨Block.zero_get i, Block.zero_get i, Block.zero_get i, Block.zero_get i⟩, rfl, rfl, rfl, rfl⟩

end Sys2Proof.Machine

/-! # What the commands read and write: LAST, the key latch, and the operands they do not read (O34, O35, O37, O38) -/

namespace Sys2Proof.Machine

/-! ### Words that are no command (R69) -/

/-- The opcode map, read both ways (R68). -/
theorem instrOfOpcode_eq_some_iff (op : BitVec 8) (i : Instr) : instrOfOpcode op = some i ↔ op = i.opcode := by
  cases i <;> revert op <;> decide +kernel

/-- A word that decodes has RSVD = 0, the command's opcode, and a build with the command (R68). -/
theorem decode_ok {raw : Bool} {w : Word} {i : Instr} (h : decode raw w = .ok i) :
    reservedField w = 0 ∧ opcodeField w = i.opcode ∧ i.wellFormed raw = true := by
  unfold decode at h
  split at h
  · cases h
  next hr =>
    split at h
    · cases h
    next j hj =>
      split at h
      next hwf =>
        cases h
        exact ⟨not_not.mp hr, (instrOfOpcode_eq_some_iff _ _).mp hj, hwf⟩
      · cases h

/-- RSVD = 0 leaves the opcode's 256 values (R63). -/
theorem toNat_lt_of_reservedField_eq_zero {w : Word} (h : reservedField w = 0) : w.toNat < 256 := by
  have h' := congrArg BitVec.toNat h
  simp [reservedField, Nat.shiftRight_eq_div_pow] at h'
  omega

theorem toNat_opcodeField (w : Word) : (opcodeField w).toNat = w.toNat % 256 := by
  simp [opcodeField]

theorem toNat_opcode_le_nine (i : Instr) : i.opcode.toNat ≤ 9 := by cases i <;> decide

/-- A build without the raw block commands has the opcodes 0 to 7 (R8, R68). -/
theorem toNat_opcode_le_seven_of_not_raw {i : Instr} (h : i.wellFormed false = true) : i.opcode.toNat ≤ 7 := by
  revert h; cases i <;> decide

/-- An illegal word decodes to no command (R69). -/
theorem decode_error_of_illegalWord {raw : Bool} {w : Word} (h : IllegalWord raw w) : ∃ e, decode raw w = .error e := by
  cases hd : decode raw w with
  | error e => exact ⟨e, rfl⟩
  | ok i =>
    obtain ⟨hres, hop, hwf⟩ := decode_ok hd
    have hlt := toNat_lt_of_reservedField_eq_zero hres
    have hcode : w.toNat % 256 = i.opcode.toNat := by rw [← toNat_opcodeField, hop]
    have hnine := toNat_opcode_le_nine i
    obtain hrsvd | hten | ⟨rfl, hraw⟩ := h
    · omega
    · omega
    · have hseven := toNat_opcode_le_seven_of_not_raw hwf
      omega

/-! ### Failing commands (R135) -/

/-- R135: a command that fails, but for PaddingValidationFailure, writes the completion fields only. -/
theorem exec_of_error {i : Instr} {s t : State} (h : exec i s = .next t) (hok : t.errCode ≠ .ok)
    (hpad : t.errCode ≠ .paddingValidationFailure) : t = completion t.errCode s := by
  cases i with
  | nop => obtain rfl := execNop_next h; rfl
  | keyInit =>
    obtain ⟨-, rfl⟩ | ⟨nk, -, rfl⟩ := execKeyInit_next h
    · rfl
    · exact absurd rfl hok
  | keyClear => obtain rfl := execKeyClear_next h; exact absurd rfl hok
  | encStart =>
    obtain ⟨-, rfl⟩ | ⟨-, rfl⟩ := execEncStart_next h
    · exact absurd rfl hok
    · rfl
  | decStart =>
    obtain ⟨-, -, -, rfl⟩ | ⟨-, -, rfl⟩ | ⟨-, rfl⟩ := execDecStart_next h
    · exact absurd rfl hok
    · rfl
    · rfl
  | encBlock =>
    obtain ⟨-, rfl⟩ | ⟨-, k, c, -, ⟨-, -, rfl⟩ | ⟨-, -, rfl⟩⟩ := execEncBlock_next h
    · rfl
    · exact absurd rfl hok
    · exact absurd rfl hok
  | decBlock =>
    obtain ⟨-, rfl⟩ | ⟨-, -, k, x, -, -, ⟨-, rfl⟩ | ⟨-, -, rfl⟩ | ⟨-, -, rfl⟩⟩ := execDecBlock_next h
    · rfl
    · exact absurd rfl hok
    · exact absurd rfl hok
    · exact absurd rfl hpad
  | abort => obtain rfl := execAbort_next h; exact absurd rfl hok
  | aesEnc =>
    obtain ⟨-, rfl⟩ | ⟨-, -, rfl⟩ | ⟨-, -, k, -, rfl⟩ := execAesEnc_next h
    · rfl
    · rfl
    · exact absurd rfl hok
  | aesDec =>
    obtain ⟨-, rfl⟩ | ⟨-, -, rfl⟩ | ⟨-, -, k, -, rfl⟩ := execAesDec_next h
    · rfl
    · rfl
    · exact absurd rfl hok

/-! ### STATUS.LAST (R29) -/

theorem execEncBlock_last {s t : State} (h : execEncBlock s = .next t) (hs : s.session = .enc) :
    t.last = true ↔ s.remain.toNat < 16 := by
  obtain ⟨hne, -⟩ | ⟨-, k, c, -, ⟨hr, -, rfl⟩ | ⟨hr, -, rfl⟩⟩ := execEncBlock_next h
  · exact absurd hs hne
  · simpa using hr
  · simpa using hr

theorem execDecBlock_last {s t : State} (h : execDecBlock s = .next t) (hs : s.session = .dec) :
    t.last = true ↔ s.remain.toNat = 16 := by
  obtain ⟨hne, -⟩ | ⟨-, -, k, x, -, -, ⟨hr, rfl⟩ | ⟨hr, -, rfl⟩ | ⟨hr, -, rfl⟩⟩ := execDecBlock_next h
  · exact absurd hs hne
  · simpa using hr.ne'
  · simpa using hr
  · simpa using hr

/-- The commands that begin or end an output leave LAST = 0 when they succeed. -/
theorem exec_clears_last {i : Instr} {s t : State} (h : exec i s = .next t) (hok : t.errCode = .ok)
    (hi : i = .encStart ∨ i = .decStart ∨ i = .abort ∨ i = .aesEnc ∨ i = .aesDec) : t.last = false := by
  obtain rfl | rfl | rfl | rfl | rfl := hi
  · obtain ⟨-, rfl⟩ | ⟨-, rfl⟩ := execEncStart_next h
    · rfl
    · cases hok
  · obtain ⟨-, -, -, rfl⟩ | ⟨-, -, rfl⟩ | ⟨-, rfl⟩ := execDecStart_next h
    · rfl
    · cases hok
    · cases hok
  · obtain rfl := execAbort_next h; rfl
  · obtain ⟨-, rfl⟩ | ⟨-, -, rfl⟩ | ⟨-, -, k, -, rfl⟩ := execAesEnc_next h
    · cases hok
    · cases hok
    · rfl
  · obtain ⟨-, rfl⟩ | ⟨-, -, rfl⟩ | ⟨-, -, k, -, rfl⟩ := execAesDec_next h
    · cases hok
    · cases hok
    · rfl

/-- NOP and the key commands leave LAST, and so does every precise failure. -/
theorem exec_keeps_last {i : Instr} {s t : State} (h : exec i s = .next t)
    (hi : i = .nop ∨ i = .keyInit ∨ i = .keyClear ∨ (t.errCode ≠ .ok ∧ t.errCode ≠ .paddingValidationFailure)) :
    t.last = s.last := by
  obtain rfl | rfl | rfl | ⟨hok, hpad⟩ := hi
  · obtain rfl := execNop_next h; rfl
  · obtain ⟨-, rfl⟩ | ⟨nk, -, rfl⟩ := execKeyInit_next h
    · rfl
    · rfl
  · obtain rfl := execKeyClear_next h; rfl
  · rw [exec_of_error h hok hpad, completion_last]

/-- Settles O34: the four rows of R29 one by one; an illegal word's completion writes the completion fields only. -/
theorem lastMarksTheFinalBlock : Obligations.LastMarksTheFinalBlock := by
  refine ⟨fun i s t h => ⟨?_, ?_, exec_clears_last h, exec_keeps_last h⟩, fun s t hb hill hm => ?_⟩
  · rintro ⟨rfl, hs⟩; exact execEncBlock_last h hs
  · rintro ⟨rfl, hs⟩; exact execDecBlock_last h hs
  · obtain ⟨e, he⟩ := decode_error_of_illegalWord hill
    cases (engineMove_of_decode_error hb he).symm.trans hm
    rfl

/-! ### The key latch (R30, R39) -/

/-- `t` has the latched key of `s`: KLEN, KEY_VALID and KEY_LAT. -/
def SameLatch (s t : State) : Prop := t.klen = s.klen ∧ t.keyValid = s.keyValid ∧ t.keyLat = s.keyLat

theorem SameLatch.completion (e : ErrCode) (s : State) : SameLatch s (completion e s) := ⟨rfl, rfl, rfl⟩

/-- The commands that are no key commands keep the latch. -/
theorem exec_sameLatch {i : Instr} {s t : State} (h : exec i s = .next t) (hinit : i ≠ .keyInit)
    (hclear : i ≠ .keyClear) : SameLatch s t := by
  cases i with
  | nop => obtain rfl := execNop_next h; exact .completion _ _
  | keyInit => exact absurd rfl hinit
  | keyClear => exact absurd rfl hclear
  | encStart => obtain ⟨-, rfl⟩ | ⟨-, rfl⟩ := execEncStart_next h <;> exact ⟨rfl, rfl, rfl⟩
  | decStart =>
    obtain ⟨-, -, -, rfl⟩ | ⟨-, -, rfl⟩ | ⟨-, rfl⟩ := execDecStart_next h <;> exact ⟨rfl, rfl, rfl⟩
  | encBlock =>
    obtain ⟨-, rfl⟩ | ⟨-, k, c, -, ⟨-, -, rfl⟩ | ⟨-, -, rfl⟩⟩ := execEncBlock_next h <;> exact ⟨rfl, rfl, rfl⟩
  | decBlock =>
    obtain ⟨-, rfl⟩ | ⟨-, -, k, x, -, -, ⟨-, rfl⟩ | ⟨-, -, rfl⟩ | ⟨-, -, rfl⟩⟩ := execDecBlock_next h <;>
      exact ⟨rfl, rfl, rfl⟩
  | abort => obtain rfl := execAbort_next h; exact ⟨rfl, rfl, rfl⟩
  | aesEnc =>
    obtain ⟨-, rfl⟩ | ⟨-, -, rfl⟩ | ⟨-, -, k, -, rfl⟩ := execAesEnc_next h <;> exact ⟨rfl, rfl, rfl⟩
  | aesDec =>
    obtain ⟨-, rfl⟩ | ⟨-, -, rfl⟩ | ⟨-, -, k, -, rfl⟩ := execAesDec_next h <;> exact ⟨rfl, rfl, rfl⟩

/-- KEY_INIT changes the latch only when it succeeds (R93, R122). -/
theorem execKeyInit_sameLatch {s t : State} (h : execKeyInit s = .next t) : t.errCode = .ok ∨ SameLatch s t := by
  obtain ⟨-, rfl⟩ | ⟨nk, -, rfl⟩ := execKeyInit_next h
  · exact .inr (.completion _ _)
  · exact .inl rfl

/-- The engine's move changes the latch only as KEY_INIT or KEY_CLEAR. -/
theorem engineMove_sameLatch {s t : State} (h : engineMove s = .next t) :
    SameLatch s t ∨ (s.busy = true ∧ ((decode s.rawBlockOps s.pendCmd = .ok .keyInit ∧ t.errCode = .ok) ∨
      decode s.rawBlockOps s.pendCmd = .ok .keyClear)) := by
  obtain ⟨-, rfl⟩ | ⟨hb, i, hd, hx⟩ | ⟨-, -, rfl⟩ := engineMove_next h
  · exact .inl ⟨rfl, rfl, rfl⟩
  · by_cases hclear : i = .keyClear
    · exact .inr ⟨hb, .inr (hclear ▸ hd)⟩
    by_cases hinit : i = .keyInit
    · subst hinit
      obtain hok | hsame := execKeyInit_sameLatch hx
      · exact .inr ⟨hb, .inl ⟨hd, hok⟩⟩
      · exact .inl hsame
    · exact .inl (exec_sameLatch hx hinit hclear)
  · exact .inl (.completion _ _)

/-- No write through the window reaches the latch (R39, R53). -/
theorem writeWindow_sameLatch (off size : Nat) (v : Word) (s : State) : SameLatch s (writeWindow off size v s) := by
  obtain ⟨-, e⟩ | ⟨r, -, e⟩ := writeWindow_cases off size v s
  · rw [e]; exact ⟨rfl, rfl, rfl⟩
  · obtain ⟨-, hvalid, -, -, -, -, hklen, -, -, hlat, -⟩ := writeReg_frame r v s
    rw [e]; exact ⟨hklen, hvalid, hlat⟩

/-- Settles O35: by the cases of the move; of the commands only KEY_INIT and KEY_CLEAR reach the latch. -/
theorem onlyKeyCommandsAndResetChangeTheLatch : Obligations.OnlyKeyCommandsAndResetChangeTheLatch := by
  intro s t hs hne
  have hdiff : ¬SameLatch s t := fun ⟨hk, hv, hl⟩ => by simp [hk, hv, hl] at hne
  obtain ⟨hnil, hm⟩ | ⟨rest, ⟨hev, hm⟩ | ⟨hev, -⟩ | ⟨addr, size, -, hm⟩ | ⟨addr, size, v, -, hm⟩⟩ := step_next hs
  · obtain ⟨hb, hcmd⟩ := (engineMove_sameLatch hm).resolve_left hdiff
    exact .inl ⟨hb, .inl hnil, hcmd⟩
  · obtain ⟨hb, hcmd⟩ := (engineMove_sameLatch hm).resolve_left hdiff
    exact .inl ⟨hb, .inr ⟨rest, hev⟩, hcmd⟩
  · exact .inr ⟨rest, hev⟩
  · obtain ⟨off, -, rfl⟩ := hostRead_next hm
    exact absurd ⟨readWindow_klen _ _ _, readWindow_keyValid _ _ _, readWindow_keyLat _ _ _⟩ hdiff
  · obtain ⟨off, -, rfl⟩ := hostWrite_next hm
    exact absurd (writeWindow_sameLatch off size v { s with events := rest }) hdiff

/-! ### Operands a command does not read (R21, R22) -/

/-- The state with KEY_IN, IV and MSG_LEN changed, the registers that only KEY_INIT and the start commands read. -/
def State.mapInputs (a : KeyBytes → KeyBytes) (v : Block → Block) (n : Word → Word) (s : State) : State :=
  { s with keyIn := a s.keyIn, iv := v s.iv, msgLen := n s.msgLen }

/-- The outcome with `f` applied to its next state, if it is one. -/
def mapNext (f : State → State) : Result → Result
  | .next t => .next (f t)
  | .fault r => .fault r
  | .refused r => .refused r

/-- A check that decides alike on both sides. -/
theorem ite_mapNext {f : State → State} {p : Prop} [Decidable p] {x y x' y' : Result} (hx : x' = mapNext f x)
    (hy : y' = mapNext f y) : (if p then x' else y') = mapNext f (if p then x else y) := by
  rw [hx, hy, apply_ite (mapNext f)]

section

variable (a : KeyBytes → KeyBytes) (v : Block → Block) (n : Word → Word) (s : State)

/-- The key operand is read from the latch, not from KEY_IN (R39, R64). -/
theorem withCipherKey_mapInputs {f g : List Byte → Result} (h : ∀ k, g k = mapNext (State.mapInputs a v n) (f k)) :
    withCipherKey (s.mapInputs a v n) g = mapNext (State.mapInputs a v n) (withCipherKey s f) := by
  have hk : cipherKey (s.mapInputs a v n) = cipherKey s := rfl
  unfold withCipherKey
  rw [hk]
  cases cipherKey s with
  | none => rfl
  | some k => exact h k

/-- Apart from KEY_CLEAR, which overwrites KEY_IN, the commands but KEY_INIT and the start commands neither read nor write
KEY_IN, IV and MSG_LEN. -/
theorem exec_mapInputs {i : Instr} (hinit : i ≠ .keyInit) (hclear : i ≠ .keyClear) (henc : i ≠ .encStart)
    (hdec : i ≠ .decStart) : exec i (s.mapInputs a v n) = mapNext (State.mapInputs a v n) (exec i s) := by
  cases i with
  | nop => rfl
  | keyInit => exact absurd rfl hinit
  | keyClear => exact absurd rfl hclear
  | encStart => exact absurd rfl henc
  | decStart => exact absurd rfl hdec
  | encBlock => exact ite_mapNext (withCipherKey_mapInputs a v n s fun k => ite_mapNext rfl rfl) rfl
  | decBlock =>
    exact ite_mapNext (withCipherKey_mapInputs a v n s fun k =>
      ite_mapNext rfl (ite_mapNext rfl (ite_mapNext rfl rfl))) rfl
  | abort => rfl
  | aesEnc => exact ite_mapNext (ite_mapNext (withCipherKey_mapInputs a v n s fun k => rfl) rfl) rfl
  | aesDec => exact ite_mapNext (ite_mapNext (withCipherKey_mapInputs a v n s fun k => rfl) rfl) rfl

end

/-- The start commands read IV and MSG_LEN but not KEY_IN. -/
theorem exec_start_mapKeyIn {i : Instr} (hi : i = .encStart ∨ i = .decStart) (a : KeyBytes → KeyBytes) (s : State) :
    exec i (s.mapInputs a id id) = mapNext (State.mapInputs a id id) (exec i s) := by
  obtain rfl | rfl := hi
  · exact ite_mapNext rfl rfl
  · exact ite_mapNext (ite_mapNext rfl rfl) rfl

/-- The key commands read neither IV nor MSG_LEN. -/
theorem exec_key_mapIvLen {i : Instr} (hi : i = .keyInit ∨ i = .keyClear) (v : Block → Block) (n : Word → Word) (s : State) :
    exec i (s.mapInputs id v n) = mapNext (State.mapInputs id v n) (exec i s) := by
  obtain rfl | rfl := hi
  · have hk : (s.mapInputs id v n).keyBits = s.keyBits := rfl
    unfold exec execKeyInit
    dsimp only
    rw [hk]
    cases (KLen.ofKeyBits s.keyBits).words <;> rfl
  · rfl

/-- Settles O37: KEY_CLEAR's next state has its own KEY_IN; the other commands leave the given one. -/
theorem keyWritesReachOnlyKeyInit : Obligations.KeyWritesReachOnlyKeyInit := by
  intro i s t a hinit h
  by_cases hclear : i = .keyClear
  · subst hclear
    obtain rfl := execKeyClear_next h
    exact ⟨.zero, rfl⟩
  · have hmap : exec i (s.mapInputs (fun _ => a) id id) = mapNext (State.mapInputs (fun _ => a) id id) (exec i s) := by
      by_cases hstart : i = .encStart ∨ i = .decStart
      · exact exec_start_mapKeyIn hstart _ s
      · obtain ⟨henc, hdec⟩ := not_or.mp hstart
        exact exec_mapInputs _ _ _ s hinit hclear henc hdec
    rw [h] at hmap
    exact ⟨a, hmap⟩

/-- Settles O38: the key commands read KEY_BITS and KEY_IN only, and the others have their operands elsewhere. -/
theorem ivAndLengthReachOnlyStartCommands : Obligations.IvAndLengthReachOnlyStartCommands := by
  intro i s t v n henc hdec h
  have hmap : exec i (s.mapInputs id (fun _ => v) fun _ => n) =
      mapNext (State.mapInputs id (fun _ => v) fun _ => n) (exec i s) := by
    by_cases hkey : i = .keyInit ∨ i = .keyClear
    · exact exec_key_mapIvLen hkey _ _ s
    · obtain ⟨hinit, hclear⟩ := not_or.mp hkey
      exact exec_mapInputs _ _ _ s hinit hclear henc hdec
  rw [h] at hmap
  exact hmap

end Sys2Proof.Machine

/-! # The register window: what a host reads and writes, and bus errors (O12, O13, O15, O16, O17) -/

namespace Sys2Proof

@[simp] theorem Block.setQuad_setQuad (b : Block) (k : Nat) (p q : Quad) :
    (b.setQuad k p).setQuad k q = b.setQuad k q := by
  match k with
  | 0 | 1 | 2 | _ + 3 => rfl

@[simp] theorem KeyBytes.setQuad_setQuad (b : KeyBytes) (k : Nat) (p q : Quad) :
    (b.setQuad k p).setQuad k q = b.setQuad k q := by
  match k with
  | 0 | 1 | 2 | 3 | 4 | 5 | 6 | _ + 7 => rfl

/-- Lane `j` of word `k` is byte `4k + j` (R20, R45). -/
theorem Block.quad_toWord_lane (b : Block) (k : Nat) {j : Nat} (hj : j < 4) :
    (b.quad k).toWord.extractLsb' (8 * j) 8 = b.get (4 * k + j) := by
  rw [toWord_lane _ hj, Block.get, show (4 * k + j) / 4 = k by omega, show (4 * k + j) % 4 = j by omega]

/-- A word written to word `k` of a block is its bytes `4k` to `4k + 3`, lane by lane (R20, R45). -/
theorem Block.setQuad_quadOfWord_get (b : Block) (v : Word) {k : Nat} (hk : k < 4) :
    ∀ i < 16, (b.setQuad k (quadOfWord v)).get i = if i / 4 = k then v.extractLsb' (8 * (i % 4)) 8 else b.get i :=
  fun i hi => by rw [setQuad_get b _ hk hi, quadOfWord_get v (Nat.mod_lt i (by decide))]

/-- A word written to word `k` of KEY_IN is its bytes `4k` to `4k + 3`, lane by lane (R20, R45). -/
theorem KeyBytes.setQuad_quadOfWord_get (b : KeyBytes) (v : Word) {k : Nat} (hk : k < 8) :
    ∀ i < 32, (b.setQuad k (quadOfWord v)).get i = if i / 4 = k then v.extractLsb' (8 * (i % 4)) 8 else b.get i :=
  fun i hi => by rw [setQuad_get b _ hk hi, quadOfWord_get v (Nat.mod_lt i (by decide))]

end Sys2Proof

namespace Sys2Proof.Machine

/-! ### The offsets of the registers (R18) -/

theorem regAt_key {k : Nat} (hk : k < 8) : regAt (0x20 + 4 * k) = some (.key ⟨k, hk⟩) := by
  interval_cases k <;> rfl

theorem regAt_iv {k : Nat} (hk : k < 4) : regAt (0x40 + 4 * k) = some (.iv ⟨k, hk⟩) := by
  interval_cases k <;> rfl

theorem regAt_din {k : Nat} (hk : k < 4) : regAt (0x50 + 4 * k) = some (.din ⟨k, hk⟩) := by
  interval_cases k <;> rfl

theorem regAt_dout {k : Nat} (hk : k < 4) : regAt (0x60 + 4 * k) = some (.dout ⟨k, hk⟩) := by
  interval_cases k <;> rfl

theorem regAt_chain {k : Nat} (hk : k < 4) : regAt (0x70 + 4 * k) = some (.chain ⟨k, hk⟩) := by
  interval_cases k <;> rfl

/-- CMD is at one offset only (R18). -/
theorem eq_of_regAt_eq_cmd {off : Nat} (h : regAt off = some .cmd) : off = 0x0C := by
  unfold regAt at h
  split at h <;> simp_all

theorem accessedReg_eq_some_iff {off size : Nat} {r : Reg} :
    accessedReg off size = some r ↔ size = 4 ∧ regAt off = some r := by
  simp [accessedReg]

/-- The registers a host cannot write (R18, R53). -/
def Reg.readOnly : Reg → Bool
  | .id | .version | .remain | .dout _ | .chain _ => true
  | _ => false

/-- Of the registers a host can write, all but STATUS are guarded (R18, R53). -/
theorem eq_status_or_readOnly_of_not_guarded {r : Reg} (h : ¬r.guarded = true) : r = .status ∨ r.readOnly = true := by
  cases r <;> simp [Reg.guarded, Reg.readOnly] at h ⊢

/-- The offsets R53 guards hold guarded registers. -/
theorem exists_regAt_guarded {off : Nat}
    (h : off = 0x08 ∨ off = 0x0C ∨ off = 0x14 ∨ (0x20 ≤ off ∧ off ≤ 0x5C ∧ off % 4 = 0)) :
    ∃ r, regAt off = some r ∧ r.guarded = true := by
  have table : ∀ o < 0x60, o = 0x08 ∨ o = 0x0C ∨ o = 0x14 ∨ (0x20 ≤ o ∧ o ≤ 0x5C ∧ o % 4 = 0) →
      (regAt o).any Reg.guarded = true := by decide +kernel
  simpa [Option.any_eq_true] using table off (by omega) h

/-- The offsets whose writes R53 ignores hold read-only registers. -/
theorem exists_regAt_readOnly {off : Nat}
    (h : off = 0x00 ∨ off = 0x04 ∨ off = 0x18 ∨ (0x60 ≤ off ∧ off ≤ 0x7C ∧ off % 4 = 0)) :
    ∃ r, regAt off = some r ∧ r.readOnly = true := by
  have table : ∀ o < 0x80, o = 0x00 ∨ o = 0x04 ∨ o = 0x18 ∨ (0x60 ≤ o ∧ o ≤ 0x7C ∧ o % 4 = 0) →
      (regAt o).any Reg.readOnly = true := by decide +kernel
  simpa [Option.any_eq_true] using table off (by omega) h

/-- A register's offset is in the window (R18, R44). -/
theorem lt_of_regAt_eq_some {off : Nat} {r : Reg} (h : regAt off = some r) : off < 0x100 := by
  unfold regAt at h
  split at h <;> simp_all

/-! ### Reads (R50, R52) -/

/-- The value of a register depends neither on the moves to come nor on the last answer. -/
theorem readReg_withHostFields (r : Reg) (s : State) (es : List Event) (a : BusResponse) :
    readReg r { s with events := es, resp := a } = readReg r s := by
  cases r <;> rfl

/-- Everything a read through the window can do: a bus error or the register's value (R51, R52). -/
theorem readWindow_cases (off size : Nat) (s : State) :
    (accessedReg off size = none ∧ readWindow off size s = { s with resp := .busError }) ∨
    ∃ r, accessedReg off size = some r ∧ readWindow off size s = { s with resp := .data (readReg r s) } := by
  unfold readWindow
  cases accessedReg off size <;> simp

/-- A read after a read has its answer, whatever moves are to come (R50). -/
theorem readWindow_readWindow (off size : Nat) (s : State) (es : List Event) :
    readWindow off size { readWindow off size s with events := es } = { readWindow off size s with events := es } := by
  unfold readWindow
  cases accessedReg off size with
  | none => rfl
  | some r => exact congrArg (fun w => { s with events := es, resp := .data w }) (readReg_withHostFields r s es _)

/-- The step of a 4-byte read at a register's offset (R52). -/
theorem step_of_readReg {s : State} {rest : List Event} {off : Nat} {r : Reg} (hr : regAt off = some r)
    (h : s.events = .read (Config.base + off) 4 :: rest) :
    step s = .next { s with events := rest, resp := .data (readReg r s) } := by
  rw [step_of_read h (lt_of_regAt_eq_some hr)]
  simp [readWindow, accessedReg, hr, readReg_withHostFields r s rest s.resp]

/-- Concatenation puts the left word above the right one. -/
theorem toNat_append_eq_add {m n : Nat} (x : BitVec m) (y : BitVec n) :
    (x ++ y).toNat = x.toNat * 2 ^ n + y.toNat := by
  rw [BitVec.toNat_append, ← Nat.shiftLeft_add_eq_or_of_lt y.isLt, Nat.shiftLeft_eq]

/-- CONFIG as a number (R25). -/
theorem toNat_configWord (s : State) : (configWord s).toNat = s.irqEn.toNat * 2 ^ 16 + s.keyBits.toNat := by
  simp only [configWord, toNat_append_eq_add, BitVec.toNat_ofBool, BitVec.ofNat_eq_ofNat, BitVec.toNat_zero,
    Nat.zero_mul, Nat.zero_add]

/-- STATUS as a number, field by field (R27). -/
theorem toNat_statusWord (s : State) : (statusWord s).toNat =
    s.busy.toNat + 2 * s.done.toNat + 4 * s.keyValid.toNat + 8 * s.session.bits.toNat +
      32 * s.last.toNat + 64 * s.errSticky.toNat + 128 * s.wrIgnored.toNat + 256 * s.outLen.toNat +
      65536 * s.errCode.code.toNat + 1048576 * s.klen.bits.toNat := by
  simp only [statusWord, toNat_append_eq_add, BitVec.toNat_ofBool, BitVec.ofNat_eq_ofNat, BitVec.toNat_zero]
  omega

/-! ### Writes (R50, R53) -/

/-- A register write is the same whatever moves are to come and whatever the last answer was. -/
theorem writeReg_withHostFields (r : Reg) (v : Word) (s : State) (es : List Event) (a : BusResponse) :
    writeReg r v { s with events := es, resp := a } = { writeReg r v s with events := es, resp := a } := by
  cases hb : s.busy with
  | true => cases r <;> simp [writeReg, Reg.guarded, hb] <;> rfl
  | false => cases r <;> simp [writeReg, hb] <;> rfl

/-- Writes to read-only registers are ignored (R53). -/
theorem writeReg_of_readOnly {r : Reg} (v : Word) (s : State) (h : r.readOnly = true) : writeReg r v s = s := by
  cases r <;> simp_all [Reg.readOnly, Reg.guarded, writeReg]

/-! What a write of each guarded register does while no command is pending (R53). -/

theorem writeReg_config_of_idle {s : State} (v : Word) (hb : s.busy = false) :
    writeReg .config v s = writeConfig v s := by simp [writeReg, hb]

theorem writeReg_cmd_of_idle {s : State} (v : Word) (hb : s.busy = false) :
    writeReg .cmd v s = { s with pendCmd := v, busy := true, done := false } := by simp [writeReg, hb]

theorem writeReg_msgLen_of_idle {s : State} (v : Word) (hb : s.busy = false) :
    writeReg .msgLen v s = { s with msgLen := v } := by simp [writeReg, hb]

theorem writeReg_key_of_idle {s : State} (k : Fin 8) (v : Word) (hb : s.busy = false) :
    writeReg (.key k) v s = { s with keyIn := s.keyIn.setQuad k.val (quadOfWord v) } := by simp [writeReg, hb]

theorem writeReg_iv_of_idle {s : State} (k : Fin 4) (v : Word) (hb : s.busy = false) :
    writeReg (.iv k) v s = { s with iv := s.iv.setQuad k.val (quadOfWord v) } := by simp [writeReg, hb]

theorem writeReg_din_of_idle {s : State} (k : Fin 4) (v : Word) (hb : s.busy = false) :
    writeReg (.din k) v s = { s with din := s.din.setQuad k.val (quadOfWord v) } := by simp [writeReg, hb]

/-- Writing a register other than CMD twice is writing it once (R50). -/
theorem writeReg_writeReg {r : Reg} (v : Word) (s : State) (h : r ≠ .cmd) :
    writeReg r v (writeReg r v s) = writeReg r v s := by
  by_cases hg : r.guarded = true
  · cases hb : s.busy with
    | true => rw [writeReg_dropped v hg hb, writeReg_dropped v hg ((dropWrite_busy s).trans hb)]; rfl
    | false => cases r <;> simp_all [Reg.guarded, writeReg, writeConfig]
  · obtain rfl | hro := eq_status_or_readOnly_of_not_guarded hg
    · simp [writeReg, Reg.guarded, writeStatus]
    · rw [writeReg_of_readOnly v s hro, writeReg_of_readOnly v s hro]

/-- A write through the window at an offset other than CMD's, twice, is that write once (R50). -/
theorem writeWindow_writeWindow {off : Nat} (size : Nat) (v : Word) (s : State) (es : List Event) (h : off ≠ 0x0C) :
    writeWindow off size v { writeWindow off size v s with events := es } =
      { writeWindow off size v s with events := es } := by
  unfold writeWindow
  cases hr : accessedReg off size with
  | none => rfl
  | some r =>
    have hcmd : r ≠ .cmd := by
      rintro rfl
      exact h (eq_of_regAt_eq_cmd (accessedReg_eq_some_iff.mp hr).2)
    dsimp only
    rw [writeReg_withHostFields r v (writeReg r v s), writeReg_writeReg v s hcmd]

theorem writeWindow_events (off size : Nat) (v : Word) (s : State) : (writeWindow off size v s).events = s.events := by
  obtain ⟨-, e⟩ | ⟨r, -, e⟩ := writeWindow_cases off size v s
  · rw [e]
  · obtain ⟨-, -, -, -, -, -, -, -, -, -, -, hevents, -⟩ := writeReg_frame r v s
    rw [e]; exact hevents

/-- The step of a 4-byte write at a register's offset (R53). -/
theorem step_of_writeReg {s : State} {rest : List Event} {off : Nat} {r : Reg} {v : Word} (hr : regAt off = some r)
    (h : s.events = .write (Config.base + off) 4 v :: rest) :
    step s = .next { writeReg r v s with events := rest, resp := .written } := by
  rw [step_of_write h (lt_of_regAt_eq_some hr)]
  simp [writeWindow, accessedReg, hr, writeReg_withHostFields r v s rest s.resp]

/-! ### Bus errors and addresses outside the window (R44, R51) -/

/-- A read through the window is a bus error exactly when it reaches no register, and then changes nothing (R51). -/
theorem readWindow_busError (off size : Nat) (s : State) :
    ((readWindow off size s).resp = .busError ↔ accessedReg off size = none) ∧
    ((readWindow off size s).resp = .busError → readWindow off size s = { s with resp := .busError }) := by
  obtain ⟨hr, e⟩ | ⟨r, hr, e⟩ := readWindow_cases off size s <;> simp [hr, e]

/-- A write through the window is a bus error exactly when it reaches no register, and then changes nothing (R51). -/
theorem writeWindow_busError (off size : Nat) (v : Word) (s : State) :
    ((writeWindow off size v s).resp = .busError ↔ accessedReg off size = none) ∧
    ((writeWindow off size v s).resp = .busError → writeWindow off size v s = { s with resp := .busError }) := by
  obtain ⟨hr, e⟩ | ⟨r, hr, e⟩ := writeWindow_cases off size v s <;> simp [hr, e]

theorem hostRead_of_outside {addr : Nat} (h : addr < Config.base ∨ Config.base + 0xFF < addr) (size : Nat) (s : State) :
    hostRead addr size s = .fault .outsideWindow := by
  simp [hostRead, (windowOffset_eq_none_iff addr).mpr h]

theorem hostWrite_of_outside {addr : Nat} (h : addr < Config.base ∨ Config.base + 0xFF < addr) (size : Nat) (v : Word)
    (s : State) : hostWrite addr size v s = .fault .outsideWindow := by
  simp [hostWrite, (windowOffset_eq_none_iff addr).mpr h]

/-- A step that reads answers a next state only inside the window (R44). -/
theorem step_read_next {s t : State} {rest : List Event} {addr size : Nat} (h : s.events = .read addr size :: rest)
    (hs : step s = .next t) :
    ∃ off < 0x100, addr = Config.base + off ∧ t = readWindow off size { s with events := rest } := by
  rw [step_of_cons h] at hs
  by_cases hout : addr < Config.base ∨ Config.base + 0xFF < addr
  · cases (hostRead_of_outside hout _ _).symm.trans hs
  · obtain ⟨off, hoff, rfl⟩ := exists_offset_of_inWindow (addr := addr) (by omega)
    cases (hostRead_base_add hoff _ _).symm.trans hs
    exact ⟨off, hoff, rfl, rfl⟩

/-- A step that writes answers a next state only inside the window (R44). -/
theorem step_write_next {s t : State} {rest : List Event} {off size : Nat} {v : Word}
    (h : s.events = .write (Config.base + off) size v :: rest) (hs : step s = .next t) :
    off < 0x100 ∧ t = writeWindow off size v { s with events := rest } := by
  by_cases hoff : off < 0x100
  · cases (step_of_write h hoff).symm.trans hs
    exact ⟨hoff, rfl⟩
  · rw [step_of_cons h] at hs
    cases (hostWrite_of_outside (by omega) _ _ _).symm.trans hs

/-! ### The statements -/

/-- Settles O12: each offset holds its register, read as `readReg` says; STATUS and CONFIG as numbers, byte strings lane by
lane. -/
theorem readReturnsTheRegisterMap : Obligations.ReadReturnsTheRegisterMap := by
  intro s rest off h
  have read {r : Reg} (hr : regAt off = some r) := step_of_readReg hr h
  refine ⟨?id, ?version, ?config, ?cmd, ?status, ?msgLen, ?remain, ?key, ?iv, ?din, ?dout, ?chain⟩
  case id => rintro rfl; exact read rfl
  case version => rintro rfl; exact read rfl
  case config => rintro rfl; exact ⟨_, read rfl, toNat_configWord s⟩
  case cmd => rintro rfl; exact read rfl
  case status => rintro rfl; exact ⟨_, read rfl, toNat_statusWord s⟩
  case msgLen => rintro rfl; exact read rfl
  case remain => rintro rfl; exact read rfl
  case key => rintro k hk rfl; exact read (regAt_key hk)
  case iv => rintro k hk rfl; exact ⟨_, read (regAt_iv hk), fun j hj => s.iv.quad_toWord_lane k hj⟩
  case din => rintro k hk rfl; exact ⟨_, read (regAt_din hk), fun j hj => s.din.quad_toWord_lane k hj⟩
  case dout => rintro k hk rfl; exact ⟨_, read (regAt_dout hk), fun j hj => s.dout.quad_toWord_lane k hj⟩
  case chain => rintro k hk rfl; exact ⟨_, read (regAt_chain hk), fun j hj => s.chain.quad_toWord_lane k hj⟩

/-- Settles O13: guarded registers drop the write while BUSY = 1, read-only ones ignore it, and each other register's write
is its case of `writeReg`. -/
theorem writeFollowsTheRegisterMap : Obligations.WriteFollowsTheRegisterMap := by
  intro s rest off v h
  have write {r : Reg} (hr : regAt off = some r) := step_of_writeReg hr h
  refine ⟨fun hb hoff => ?dropped, fun hoff => ?readOnly, ?status, fun hb => ?idle⟩
  case dropped =>
    obtain ⟨r, hr, hg⟩ := exists_regAt_guarded hoff
    rw [write hr, writeReg_dropped v hg hb]
    rfl
  case readOnly =>
    obtain ⟨r, hr, hro⟩ := exists_regAt_readOnly hoff
    rw [write hr, writeReg_of_readOnly v s hro]
  case status => rintro rfl; exact write rfl
  case idle =>
    refine ⟨?config, ?cmd, ?msgLen, ?key, ?iv, ?din⟩
    case config => rintro rfl; rw [write rfl, writeReg_config_of_idle v hb]; rfl
    case cmd => rintro rfl; rw [write rfl, writeReg_cmd_of_idle v hb]
    case msgLen => rintro rfl; rw [write rfl, writeReg_msgLen_of_idle v hb]
    case key =>
      rintro k hk rfl
      rw [write (regAt_key hk), writeReg_key_of_idle _ v hb]
      exact ⟨_, rfl, s.keyIn.setQuad_quadOfWord_get v hk⟩
    case iv =>
      rintro k hk rfl
      rw [write (regAt_iv hk), writeReg_iv_of_idle _ v hb]
      exact ⟨_, rfl, s.iv.setQuad_quadOfWord_get v hk⟩
    case din =>
      rintro k hk rfl
      rw [write (regAt_din hk), writeReg_din_of_idle _ v hb]
      exact ⟨_, rfl, s.din.setQuad_quadOfWord_get v hk⟩

/-- Settles O15: in the window the bus errors are the accesses that reach no register. -/
theorem busErrorsChangeNothing : Obligations.BusErrorsChangeNothing := by
  intro s rest off size v hoff h
  have hwin : off < 0x100 := by omega
  obtain h | h := h
  · obtain ⟨hiff, hkeep⟩ := readWindow_busError off size { s with events := rest }
    exact ⟨_, step_of_read h hwin, hiff.trans (accessedReg_eq_none_iff size hwin), hkeep⟩
  · obtain ⟨hiff, hkeep⟩ := writeWindow_busError off size v { s with events := rest }
    exact ⟨_, step_of_write h hwin, hiff.trans (accessedReg_eq_none_iff size hwin), hkeep⟩

/-- Settles O16: an address outside the window has no offset. -/
theorem accessOutsideTheWindowStops : Obligations.AccessOutsideTheWindowStops := by
  intro s rest addr size v h hout
  obtain h | h := h
  · exact (step_of_cons h).trans (hostRead_of_outside hout size _)
  · exact (step_of_cons h).trans (hostWrite_of_outside hout size v _)

/-- Settles O17: a read keeps what the next read answers, and a register write is idempotent. -/
theorem readsAndPlainWritesAreIdempotent : Obligations.ReadsAndPlainWritesAreIdempotent := by
  refine ⟨fun s rest addr size t u h ht hu => ?_, fun s rest off size v t u h hcmd _ ht hu => ?_⟩
  · obtain ⟨off, hoff, rfl, rfl⟩ := step_read_next h ht
    cases (step_of_read (readWindow_events _ _ _) hoff).symm.trans hu
    rw [readWindow_readWindow]
    simp
  · obtain ⟨hoff, rfl⟩ := step_write_next h ht
    cases (step_of_write (writeWindow_events _ _ _ _) hoff).symm.trans hu
    exact writeWindow_writeWindow size v _ rest hcmd

end Sys2Proof.Machine

/-! # The command word: decode and encode, issue, and completion (O1, O2, O3, O4, O6, O14, O22) -/

namespace Sys2Proof.Machine

/-! ### Decode and encode (R63, R68) -/

/-- RSVD = 0 adds nothing to the opcode (R63, R70). -/
theorem toNat_encode (i : Instr) : (encode i).toNat = i.opcode.toNat := by cases i <;> rfl

@[simp] theorem reservedField_encode (i : Instr) : reservedField (encode i) = 0 := by cases i <;> rfl

@[simp] theorem opcodeField_encode (i : Instr) : opcodeField (encode i) = i.opcode := by cases i <;> rfl

/-- A word is a command's encoding exactly when its two fields are the encoding's (R63, R70). -/
theorem eq_encode_iff (w : Word) (i : Instr) : w = encode i ↔ reservedField w = 0 ∧ opcodeField w = i.opcode := by
  constructor
  · rintro rfl; simp
  · rintro ⟨hr, ho⟩
    have hlt := toNat_lt_of_reservedField_eq_zero hr
    apply BitVec.eq_of_toNat_eq
    rw [toNat_encode, ← ho, toNat_opcodeField, Nat.mod_eq_of_lt hlt]

/-- A word with RSVD = 0 and the opcode of a command that the build has decodes to it (R68). -/
theorem decode_of_fields {raw : Bool} {w : Word} {i : Instr} (hr : reservedField w = 0) (ho : opcodeField w = i.opcode)
    (hwf : i.wellFormed raw = true) : decode raw w = .ok i := by
  simp [decode, hr, (instrOfOpcode_eq_some_iff _ _).mpr ho, hwf]

/-- Settles O3: both sides say that RSVD = 0, that OPCODE is the command's, and that the build has it. -/
theorem decodeInvertsEncode : Obligations.DecodeInvertsEncode := by
  intro raw w i
  rw [eq_encode_iff, and_assoc]
  exact ⟨decode_ok, fun ⟨hr, ho, hwf⟩ => decode_of_fields hr ho hwf⟩

/-- The words that decode: 0 to 7, and 8 and 9 in a build with the raw block commands (R68). -/
theorem exists_decode_ok_iff (raw : Bool) (w : Word) :
    (∃ i, decode raw w = .ok i) ↔ w.toNat ≤ 7 ∨ (raw = true ∧ (w.toNat = 8 ∨ w.toNat = 9)) := by
  constructor
  · rintro ⟨i, h⟩
    obtain ⟨rfl, hwf⟩ := (decodeInvertsEncode raw w i).mp h
    rw [toNat_encode]
    cases raw with
    | false => exact .inl (toNat_opcode_le_seven_of_not_raw hwf)
    | true =>
      have hnine := toNat_opcode_le_nine i
      rw [eq_self, true_and]
      omega
  · have hw : w = BitVec.ofNat 32 w.toNat := by simp
    generalize w.toNat = n at hw
    subst hw
    rintro (h | ⟨rfl, rfl | rfl⟩)
    · interval_cases n <;> exact ⟨_, rfl⟩
    · exact ⟨.aesEnc, rfl⟩
    · exact ⟨.aesDec, rfl⟩

/-- A command of every build is decoded from its word alone (R68). -/
theorem decode_eq_ok_iff_of_every_build {i : Instr} (hi : ∀ raw, i.wellFormed raw = true) (raw : Bool) (w : Word) :
    decode raw w = .ok i ↔ w = encode i := by
  simp [decodeInvertsEncode raw w i, hi]

/-- Settles O2: each row of the map is O3 at its command, and a word that decodes to nothing is rejected by name. -/
theorem decodeAcceptsExactlyTheCommandWords : Obligations.DecodeAcceptsExactlyTheCommandWords := by
  refine ⟨fun raw w => ?map, fun s hb hnone => ?illegal⟩
  case map =>
    have every {i : Instr} (hi : ∀ raw, i.wellFormed raw = true) := decode_eq_ok_iff_of_every_build hi raw w
    have row (i : Instr) := decodeInvertsEncode raw w i
    exact ⟨every fun _ => rfl, every fun _ => rfl, every fun _ => rfl, every fun _ => rfl, every fun _ => rfl,
      every fun _ => rfl, every fun _ => rfl, every fun _ => rfl, row .aesEnc, row .aesDec, exists_decode_ok_iff raw w⟩
  case illegal =>
    cases hd : decode s.rawBlockOps s.pendCmd with
    | ok i => exact absurd hd (hnone i)
    | error e => exact engineMove_of_decode_error hb hd

/-- Settles O1, by evaluating the decoder. -/
theorem commandWordsDecodeAsTheMapSays : Obligations.CommandWordsDecodeAsTheMapSays := by
  unfold Obligations.CommandWordsDecodeAsTheMapSays
  decide

/-! ### Completion (R67, R69, R135) -/

/-- A completion with an error sets ERR_STICKY whatever it was (R67). -/
theorem completion_of_error {e : ErrCode} (he : e ≠ .ok) (s : State) :
    completion e s = { s with errCode := e, errSticky := true, busy := false, done := true } := by
  simp [completion, he]

/-- Settles O4: an illegal word decodes to nothing, and the engine completes it with IllegalCommand. -/
theorem illegalWordsFailWithIllegalCommand : Obligations.IllegalWordsFailWithIllegalCommand := by
  intro s rest hs hb hill
  obtain ⟨e, he⟩ := decode_error_of_illegalWord hill
  calc step s = engineMove { s with events := rest } := step_of_cons hs
    _ = .next (completion .illegalCommand { s with events := rest }) := engineMove_of_decode_error hb he
    _ = _ := by rw [completion_of_error (by decide)]

/-- `t` is a completion, with whatever code, of a state that has the ERR_STICKY of `s` (R67). -/
def Completes (s t : State) : Prop := ∃ u, t = completion t.errCode u ∧ u.errSticky = s.errSticky

/-- Every command ends in a completion, and none writes ERR_STICKY before it (R67). -/
theorem exec_completes {i : Instr} {s t : State} (h : exec i s = .next t) : Completes s t := by
  cases i with
  | nop => obtain rfl := execNop_next h; exact ⟨_, rfl, rfl⟩
  | keyInit => obtain ⟨-, rfl⟩ | ⟨nk, -, rfl⟩ := execKeyInit_next h <;> exact ⟨_, rfl, rfl⟩
  | keyClear => obtain rfl := execKeyClear_next h; exact ⟨_, rfl, rfl⟩
  | encStart => obtain ⟨-, rfl⟩ | ⟨-, rfl⟩ := execEncStart_next h <;> exact ⟨_, rfl, rfl⟩
  | decStart => obtain ⟨-, -, -, rfl⟩ | ⟨-, -, rfl⟩ | ⟨-, rfl⟩ := execDecStart_next h <;> exact ⟨_, rfl, rfl⟩
  | encBlock =>
    obtain ⟨-, rfl⟩ | ⟨-, k, c, -, ⟨-, -, rfl⟩ | ⟨-, -, rfl⟩⟩ := execEncBlock_next h <;> exact ⟨_, rfl, rfl⟩
  | decBlock =>
    obtain ⟨-, rfl⟩ | ⟨-, -, k, x, -, -, ⟨-, rfl⟩ | ⟨-, -, rfl⟩ | ⟨-, -, rfl⟩⟩ := execDecBlock_next h <;>
      exact ⟨_, rfl, rfl⟩
  | abort => obtain rfl := execAbort_next h; exact ⟨_, rfl, rfl⟩
  | aesEnc => obtain ⟨-, rfl⟩ | ⟨-, -, rfl⟩ | ⟨-, -, k, -, rfl⟩ := execAesEnc_next h <;> exact ⟨_, rfl, rfl⟩
  | aesDec => obtain ⟨-, rfl⟩ | ⟨-, -, rfl⟩ | ⟨-, -, k, -, rfl⟩ := execAesDec_next h <;> exact ⟨_, rfl, rfl⟩

/-- What a completion leaves in BUSY, DONE and ERR_STICKY (R67). -/
theorem Completes.fields {s t : State} (h : Completes s t) :
    t.busy = false ∧ t.done = true ∧ (t.errSticky = true ↔ s.errSticky = true ∨ t.errCode ≠ .ok) := by
  obtain ⟨u, ht, hu⟩ := h
  rw [ht]
  simp [hu]

/-- With a command pending the engine's move is a completion, and one that fails with a code other than
PaddingValidationFailure is of `s` itself (R67, R135). -/
theorem engineMove_completes {s t : State} (hb : s.busy = true) (h : engineMove s = .next t) :
    Completes s t ∧ (t.errCode ≠ .ok → t.errCode ≠ .paddingValidationFailure → t = completion t.errCode s) := by
  obtain ⟨hidle, -⟩ | ⟨-, i, -, hx⟩ | ⟨-, -, rfl⟩ := engineMove_next h
  · cases hb.symm.trans hidle
  · exact ⟨exec_completes hx, exec_of_error hx⟩
  · exact ⟨⟨s, rfl, rfl⟩, fun _ _ => rfl⟩

/-- Settles O6: a move with a command pending is a completion, and a precise failure is one of `s` itself. -/
theorem completionWritesTheCompletionFields : Obligations.CompletionWritesTheCompletionFields := by
  refine fun s => ⟨engineMove_of_idle, fun hb t h => ?_⟩
  obtain ⟨hc, hfail⟩ := engineMove_completes hb h
  obtain ⟨hbusy, hdone, hsticky⟩ := hc.fields
  exact ⟨hbusy, hdone, hsticky, fun hok hpad => (hfail hok hpad).trans (completion_of_error hok s)⟩

/-! ### Issue, and the host's sequence for a block (R66, R71) -/

/-- Settles O14: CMD is guarded, and its write is an issue while no command is pending. -/
theorem cmdWriteIssuesTheCommand : Obligations.CmdWriteIssuesTheCommand := by
  intro s rest v h
  refine ⟨_, step_of_writeReg (r := .cmd) rfl h, fun hb => ?_, fun hb => ?_⟩
  · rw [writeReg_dropped v rfl hb]; rfl
  · rw [writeReg_cmd_of_idle v hb]

/-- A run whose next move is a 4-byte write at a register's offset makes the write first (R53). -/
theorem run_succ_of_writeReg {s : State} {rest : List Event} {off : Nat} {r : Reg} {v : Word} (n : Nat)
    (hr : regAt off = some r) (h : s.events = .write (Config.base + off) 4 v :: rest) :
    Host.Core.run Sys2Proof.core (n + 1) s =
      Host.Core.run Sys2Proof.core n { writeReg r v s with events := rest, resp := .written } :=
  run_succ_of_next n (step_of_writeReg hr h)

/-- A write of word `k` of DIN while no command is pending, as the first step of a run (R36, R53). -/
theorem run_succ_of_write_din {s : State} {rest : List Event} {q : Quad} (n : Nat) (k : Fin 4) (hb : s.busy = false)
    (h : s.events = .write (Config.base + (0x50 + 4 * k.val)) 4 q.toWord :: rest) :
    Host.Core.run Sys2Proof.core (n + 1) s =
      Host.Core.run Sys2Proof.core n { s with din := s.din.setQuad k.val q, events := rest, resp := .written } := by
  rw [run_succ_of_writeReg n (regAt_din k.isLt) h, writeReg_din_of_idle _ _ hb, quadOfWord_toWord]

/-- `set_din` takes four steps and replaces DIN (R71). -/
theorem run_setDinMoves {s : State} {b : Block} {rest : List Event} (n : Nat) (hb : s.busy = false)
    (h : s.events = setDinMoves b ++ rest) :
    Host.Core.run Sys2Proof.core (n + 4) s =
      Host.Core.run Sys2Proof.core n { s with din := b, events := rest, resp := .written } :=
  Eq.trans (run_succ_of_write_din (n + 3) 0 hb h) <| Eq.trans (run_succ_of_write_din (n + 2) 1 hb rfl) <|
    Eq.trans (run_succ_of_write_din (n + 1) 2 hb rfl) <| run_succ_of_write_din n 3 hb rfl

/-- A write of CMD while no command is pending, as the first step of a run (R66). -/
theorem run_succ_of_issue {s : State} {v : Word} {rest : List Event} (n : Nat) (hb : s.busy = false)
    (h : s.events = .write (Config.base + 0x0C) 4 v :: rest) :
    Host.Core.run Sys2Proof.core (n + 1) s = Host.Core.run Sys2Proof.core n
      { s with pendCmd := v, busy := true, done := false, events := rest, resp := .written } := by
  rw [run_succ_of_writeReg n (r := .cmd) rfl h, writeReg_cmd_of_idle _ hb]

/-- The engine's turn with a command's word pending is the command (R67). -/
theorem step_of_encode_pending {s : State} {i : Instr} {rest : List Event} (hb : s.busy = true)
    (hp : s.pendCmd = encode i) (hwf : i.wellFormed s.rawBlockOps = true) (h : s.events = .engine :: rest) :
    step s = exec i { s with events := rest } :=
  (step_of_cons h).trans
    (engineMove_of_decode_ok (s := { s with events := rest }) hb ((decodeInvertsEncode _ _ _).mpr ⟨hp, hwf⟩))

/-- Settles O22: four writes of DIN and one of CMD leave the command pending, and the engine's turn is the command. -/
theorem hostBlockSequenceRunsTheCommand : Obligations.HostBlockSequenceRunsTheCommand := by
  intro s i b rest hb hwf hs
  have hdin : s.events = setDinMoves b ++ (commandMoves i ++ rest) := by rw [hs, List.append_assoc]
  have issued (n : Nat) : Host.Core.run Sys2Proof.core (n + 5) s = Host.Core.run Sys2Proof.core n { s with
      din := b, pendCmd := encode i, busy := true, done := false, resp := .written, events := .engine :: rest } :=
    (run_setDinMoves (n + 1) hb hdin).trans (run_succ_of_issue n hb rfl)
  refine ⟨issued 0, fun t ht => (issued 1).trans ?_⟩
  exact run_succ_of_next 0 (Eq.trans (step_of_encode_pending rfl rfl hwf rfl) ht)

end Sys2Proof.Machine

/-! # The cipher is a permutation of the blocks, and the raw block commands (O31, O39, O40) -/

namespace Sys2Proof.Machine

/-! ### The inverse round transformations (R79, R82, R84) -/

/-- Applying a left inverse to each byte undoes the bytewise map. -/
theorem block_map_map_of_leftInverse {f g : Byte → Byte} (h : Function.LeftInverse g f) (b : Block) :
    (b.map f).map g = b := by
  simp [Block.map, Quad.map, h _]

@[simp] theorem invSubBytes_subBytes (s : Block) : invSubBytes (subBytes s) = s :=
  block_map_map_of_leftInverse invSbox_sbox s

@[simp] theorem subBytes_invSubBytes (s : Block) : subBytes (invSubBytes s) = s :=
  block_map_map_of_leftInverse sbox_invSbox s

/-- Moving row `r` by `r` places to the left and back again moves no byte: the sixteen indices compute. -/
@[simp] theorem invShiftRows_shiftRows (s : Block) : invShiftRows (shiftRows s) = s := rfl

@[simp] theorem shiftRows_invShiftRows (s : Block) : shiftRows (invShiftRows s) = s := rfl

/-- A map of columns that distributes over exclusive or and commutes with the rotation of a column, as the product with a
circulant matrix over GF(2^8) does. What it does to the single bits of a column's first byte determines it. -/
structure ColumnLinear (f : Quad → Quad) : Prop where
  xor : ∀ a b, f (a.xor b) = (f a).xor (f b)
  rotWord : ∀ a, f (rotWord a) = rotWord (f a)

theorem ColumnLinear.comp {f g : Quad → Quad} (hf : ColumnLinear f) (hg : ColumnLinear g) : ColumnLinear (f ∘ g) where
  xor a b := by simp [hg.xor, hf.xor]
  rotWord a := by simp [hg.rotWord, hf.rotWord]

/-- A column is the exclusive or of rotated columns with one byte each, in their first place. -/
theorem xor_rotWord_bytes (q : Quad) :
    Quad.xor ⟨q.b0, 0, 0, 0⟩ (rotWord (Quad.xor ⟨q.b3, 0, 0, 0⟩
      (rotWord (Quad.xor ⟨q.b2, 0, 0, 0⟩ (rotWord ⟨q.b1, 0, 0, 0⟩))))) = q := by
  simp [Quad.xor, Machine.rotWord]

/-- A byte is the exclusive or of its bits in their places. -/
theorem foldr_xor_bits (x : Byte) : (List.range 8).foldr (fun i y => (x &&& BitVec.twoPow 8 i) ^^^ y) 0 = x := by
  revert x; decide +kernel

/-- A property of the eight one-bit bytes that exclusive or keeps is one of every byte. -/
theorem byte_induction {P : Byte → Prop} (hxor : ∀ x y, P x → P y → P (x ^^^ y))
    (hbit : ∀ i < 8, P (BitVec.twoPow 8 i)) (x : Byte) : P x := by
  have hzero : P 0 := by simpa using hxor _ _ (hbit 0 (by omega)) (hbit 0 (by omega))
  have hmask (i : Nat) (hi : i < 8) : P (x &&& BitVec.twoPow 8 i) := by
    rw [BitVec.and_twoPow]
    split
    · exact hbit i hi
    · exact hzero
  rw [← foldr_xor_bits x]
  exact List.foldrRecOn _ _ hzero fun y hy i hi => hxor _ _ (hmask i (List.mem_range.mp hi)) hy

theorem xor_first_bytes (x y : Byte) : Quad.xor ⟨x, 0, 0, 0⟩ ⟨y, 0, 0, 0⟩ = ⟨x ^^^ y, 0, 0, 0⟩ := by
  simp [Quad.xor]

/-- A `ColumnLinear` map is the identity if it is one on the eight columns with a single bit, in the first byte. -/
theorem ColumnLinear.eq_self {f : Quad → Quad} (h : ColumnLinear f)
    (hbit : ∀ i < 8, f ⟨BitVec.twoPow 8 i, 0, 0, 0⟩ = ⟨BitVec.twoPow 8 i, 0, 0, 0⟩) (q : Quad) : f q = q := by
  have hbyte : ∀ x, f ⟨x, 0, 0, 0⟩ = ⟨x, 0, 0, 0⟩ :=
    byte_induction (fun x y hx hy => by rw [← xor_first_bytes, h.xor, hx, hy]) hbit
  rw [← xor_rotWord_bytes q]
  simp only [h.xor, h.rotWord, hbyte]

theorem mixColumn_linear : ColumnLinear mixColumn where
  xor a b := by
    simp only [mixColumn, Quad.xor, gmul_xor_right, Quad.mk.injEq]
    refine ⟨?_, ?_, ?_, ?_⟩ <;> ac_rfl
  rotWord a := by
    simp only [mixColumn, Machine.rotWord, Quad.mk.injEq]
    refine ⟨?_, ?_, ?_, ?_⟩ <;> ac_rfl

theorem invMixColumn_linear : ColumnLinear invMixColumn where
  xor a b := by
    simp only [invMixColumn, Quad.xor, gmul_xor_right, Quad.mk.injEq]
    refine ⟨?_, ?_, ?_, ?_⟩ <;> ac_rfl
  rotWord a := by
    simp only [invMixColumn, Machine.rotWord, Quad.mk.injEq]
    refine ⟨?_, ?_, ?_, ?_⟩ <;> ac_rfl

@[simp] theorem invMixColumn_mixColumn (q : Quad) : invMixColumn (mixColumn q) = q :=
  (invMixColumn_linear.comp mixColumn_linear).eq_self (by decide +kernel) q

@[simp] theorem mixColumn_invMixColumn (q : Quad) : mixColumn (invMixColumn q) = q :=
  (mixColumn_linear.comp invMixColumn_linear).eq_self (by decide +kernel) q

@[simp] theorem invMixColumns_mixColumns (s : Block) : invMixColumns (mixColumns s) = s := by
  simp [invMixColumns, mixColumns]

@[simp] theorem mixColumns_invMixColumns (s : Block) : mixColumns (invMixColumns s) = s := by
  simp [invMixColumns, mixColumns]

/-- Settles O39: each of the three undoes its inverse and is undone by it. -/
theorem inverseRoundTransformations : Obligations.InverseRoundTransformations := fun s =>
  ⟨invSubBytes_subBytes s, subBytes_invSubBytes s, invShiftRows_shiftRows s, shiftRows_invShiftRows s,
    invMixColumns_mixColumns s, mixColumns_invMixColumns s⟩

/-! ### AES_Decrypt and AES_Encrypt (R86, R87, R88) -/

/-- AES_Encrypt ends, and so AES_Decrypt starts, with a SubBytes and a ShiftRows that no MixColumns follows: from there the
rounds `r` down to 1 undo the rounds 1 to `r`, and leave the first SubBytes and ShiftRows to undo. -/
theorem decryptRounds_encryptRounds (ws : List Quad) (r : Nat) (s : Block) :
    decryptRounds ws r (shiftRows (subBytes (encryptRounds ws r s))) = shiftRows (subBytes s) := by
  induction r with
  | zero => rfl
  | succ r ih => simp [encryptRounds, decryptRounds, ih]

/-- The rounds 1 to `r` undo the rounds `r` down to 1. -/
theorem encryptRounds_decryptRounds (ws : List Quad) (r : Nat) (s : Block) :
    encryptRounds ws r (invSubBytes (invShiftRows (decryptRounds ws r s))) = invSubBytes (invShiftRows s) := by
  induction r generalizing s with
  | zero => rfl
  | succ r ih => simp [encryptRounds, decryptRounds, ih]

/-- This needs nothing of the key's length: both directions use the same round keys. -/
theorem aesDecrypt_aesEncrypt (k : List Byte) (b : Block) : aesDecrypt k (aesEncrypt k b) = b := by
  simp [aesDecrypt, aesEncrypt, decryptRounds_encryptRounds]

theorem aesEncrypt_aesDecrypt (k : List Byte) (b : Block) : aesEncrypt k (aesDecrypt k b) = b := by
  simp [aesDecrypt, aesEncrypt, encryptRounds_decryptRounds]

/-- Settles O40: the rounds of one cipher undo those of the other, by induction on their number. -/
theorem aesDecryptInvertsEncrypt : Obligations.AesDecryptInvertsEncrypt := fun K B _ =>
  ⟨aesDecrypt_aesEncrypt K B, aesEncrypt_aesDecrypt K B⟩

/-! ### AES_ENC and AES_DEC (R91, R92) -/

/-- The key operand of the cipher commands is the latched key (R30, R64). -/
theorem latchedKey_iff_cipherKey (s : State) (k : List Byte) : s.LatchedKey k ↔ cipherKey s = some k := by
  unfold State.LatchedKey cipherKey
  cases s.klen <;> simp [KLen.words, eq_comm]

/-- A completion with success leaves ERR_STICKY as it was (R67). -/
theorem completion_ok (s : State) :
    completion .ok s = { s with errCode := .ok, busy := false, done := true } := by
  simp [completion]

theorem execAesEnc_of_no_key {s : State} (hraw : s.rawBlockOps = true) (hv : s.keyValid = false) :
    execAesEnc s = .next (completion .invalidKeyMaterial s) := by
  simp [execAesEnc, hraw, hv, raise]

theorem execAesDec_of_no_key {s : State} (hraw : s.rawBlockOps = true) (hv : s.keyValid = false) :
    execAesDec s = .next (completion .invalidKeyMaterial s) := by
  simp [execAesDec, hraw, hv, raise]

theorem execAesEnc_of_key {s : State} {k : List Byte} (hraw : s.rawBlockOps = true) (hv : s.keyValid = true)
    (hk : cipherKey s = some k) : execAesEnc s = .next (completion .ok (rawOutput (aesEncrypt k s.din) s)) := by
  simp [execAesEnc, hraw, hv, withCipherKey_of_some hk, succeed]

theorem execAesDec_of_key {s : State} {k : List Byte} (hraw : s.rawBlockOps = true) (hv : s.keyValid = true)
    (hk : cipherKey s = some k) : execAesDec s = .next (completion .ok (rawOutput (aesDecrypt k s.din) s)) := by
  simp [execAesDec, hraw, hv, withCipherKey_of_some hk, succeed]

/-- Settles O31: without a key a precise failure; with one the invariants give the key operand, which is the latched key; in
a build without the commands the decoder refuses their words. -/
theorem rawBlockCommandsTransformDin : Obligations.RawBlockCommandsTransformDin := by
  refine fun s => ⟨fun hraw hv => ?noKey, fun hinv hraw hv => ?key, fun hraw => ?absent⟩
  case noKey =>
    simp only [exec, execAesEnc_of_no_key hraw hv, execAesDec_of_no_key hraw hv]
    rw [completion_of_error (by decide)]
    exact ⟨rfl, rfl⟩
  case key =>
    obtain ⟨k, hk⟩ := hinv.exists_cipherKey hv
    refine ⟨k, (latchedKey_iff_cipherKey s k).mpr hk, ?_, ?_⟩
    · exact (execAesEnc_of_key hraw hv hk).trans (by rw [completion_ok]; rfl)
    · exact (execAesDec_of_key hraw hv hk).trans (by rw [completion_ok]; rfl)
  case absent =>
    rw [hraw]
    decide

end Sys2Proof.Machine

/-! # Key management: what KEY_INIT and KEY_CLEAR do, and key secrecy at the interface (O21, O24, O25) -/

namespace Sys2Proof.Machine

/-! ### Key secrecy at the interface (R34, R39, R95) -/

/-- No register's value depends on KEY_IN, which reads as 0, or on KEY_LAT, which is at no offset. -/
theorem readReg_withKeyMaterial (r : Reg) (s : State) (a b : KeyBytes) :
    readReg r { s with keyIn := a, keyLat := b } = readReg r s := by
  cases r <;> rfl

theorem readWindow_withKeyMaterial (off size : Nat) (s : State) (a b : KeyBytes) :
    readWindow off size { s with keyIn := a, keyLat := b } = { readWindow off size s with keyIn := a, keyLat := b } := by
  unfold readWindow
  cases accessedReg off size with
  | none => rfl
  | some r => simp only [readReg_withKeyMaterial]

/-- Settles O21: a read that answers is inside the window, where the key material reaches neither the answer nor the rest. -/
theorem hostReadsRevealNoKeyMaterial : Obligations.HostReadsRevealNoKeyMaterial := by
  intro s t rest addr size a b hev hs
  obtain ⟨off, hoff, rfl, rfl⟩ := step_read_next hev hs
  calc step { s with keyIn := a, keyLat := b }
    _ = .next (readWindow off size { s with keyIn := a, keyLat := b, events := rest }) := step_of_read hev hoff
    _ = _ := congrArg _ (readWindow_withKeyMaterial off size { s with events := rest } a b)

/-! ### KEY_INIT (R93, R122) -/

theorem KLen.ofKeyBits_of_unsupported {b : BitVec 16} (h128 : b.toNat ≠ 128) (h192 : b.toNat ≠ 192)
    (h256 : b.toNat ≠ 256) : KLen.ofKeyBits b = .none := by
  have hne : ∀ n : BitVec 16, b.toNat ≠ n.toNat → b ≠ n := fun _ => mt (congrArg BitVec.toNat)
  rw [KLen.ofKeyBits, if_neg (hne 128 h128), if_neg (hne 192 h192), if_neg (hne 256 h256)]

/-- A supported length of `32 * nk` bits is stored as its KLEN, whose Nk is `nk` (R30, R93). -/
theorem KLen.ofKeyBits_of_supported {b : BitVec 16} {nk : Nat} {len : KLen}
    (h : (nk = 4 ∧ len = .bits128) ∨ (nk = 6 ∧ len = .bits192) ∨ (nk = 8 ∧ len = .bits256)) (hb : b.toNat = 32 * nk) :
    KLen.ofKeyBits b = len ∧ len.words = some nk := by
  obtain rfl : b = BitVec.ofNat 16 (32 * nk) := by rw [← hb, BitVec.ofNat_toNat, BitVec.setWidth_eq]
  obtain ⟨rfl, rfl⟩ | ⟨rfl, rfl⟩ | ⟨rfl, rfl⟩ := h <;> decide

theorem execKeyInit_of_unsupported {s : State} (h : KLen.ofKeyBits s.keyBits = .none) :
    execKeyInit s = .next (completion .unsupportedKeyLength s) := by
  simp [execKeyInit, h, KLen.words, raise]

theorem execKeyInit_of_supported {s : State} {len : KLen} {nk : Nat} (h : KLen.ofKeyBits s.keyBits = len)
    (hw : len.words = some nk) : execKeyInit s = .next
      (completion .ok (endSession { s with keyLat := s.keyIn.keepQuads nk, klen := len, keyValid := true })) := by
  simp [execKeyInit, h, hw, succeed]

/-- Settles O24: KEY_BITS fixes KLEN, and the latch is the first Nk words of KEY_IN. -/
theorem keyInitLoadsTheLatch : Obligations.KeyInitLoadsTheLatch := by
  refine fun s => ⟨fun h128 h192 h256 => ?unsupported, fun nk len hlen hbits => ?supported⟩
  case unsupported =>
    exact (execKeyInit_of_unsupported (KLen.ofKeyBits_of_unsupported h128 h192 h256)).trans
      (by rw [completion_of_error (by decide)])
  case supported =>
    obtain ⟨hk, hw⟩ := KLen.ofKeyBits_of_supported hlen hbits
    refine ⟨s.keyIn.keepQuads nk, fun i hi => ?_, ?_⟩
    · simp only [KeyBytes.keepQuads_get _ _ hi, Nat.div_lt_iff_lt_mul (show 0 < 4 by decide), Nat.mul_comm nk]
    · exact (execKeyInit_of_supported hk hw).trans (by rw [completion_ok]; rfl)

/-! ### KEY_CLEAR and the commands without a key (R94) -/

/-- Where the latch stays, no key appears. -/
theorem SameLatch.keyValid_ne_true {s t : State} (h : SameLatch s t) (hv : s.keyValid = false) : t.keyValid ≠ true := by
  obtain ⟨-, hsame, -⟩ := h
  simp [hsame, hv]

/-- The engine's move gives a key only as a KEY_INIT that succeeds (R93, R94). -/
theorem engineMove_gives_key {s t : State} (hv : s.keyValid = false) (hm : engineMove s = .next t)
    (hv' : t.keyValid = true) :
    s.busy = true ∧ decode s.rawBlockOps s.pendCmd = .ok .keyInit ∧ t.errCode = .ok := by
  obtain hsame | ⟨hb, ⟨hd, hok⟩ | hd⟩ := engineMove_sameLatch hm
  · exact absurd hv' (hsame.keyValid_ne_true hv)
  · exact ⟨hb, hd, hok⟩
  · obtain rfl := execKeyClear_next ((engineMove_of_decode_ok hb hd).symm.trans hm)
    simp at hv'

/-- A step gives a key only by such a move of the engine: a reset leaves no key, and no host access reaches KEY_VALID. -/
theorem step_gives_key {s t : State} (hv : s.keyValid = false) (hs : step s = .next t) (hv' : t.keyValid = true) :
    s.busy = true ∧ decode s.rawBlockOps s.pendCmd = .ok .keyInit ∧ t.errCode = .ok := by
  obtain ⟨-, hm⟩ | ⟨rest, ⟨-, hm⟩ | ⟨-, rfl⟩ | ⟨addr, size, -, hm⟩ | ⟨addr, size, v, -, hm⟩⟩ := step_next hs
  · exact engineMove_gives_key hv hm hv'
  · exact engineMove_gives_key (s := { s with events := rest }) hv hm hv'
  · cases hv'
  · obtain ⟨off, -, rfl⟩ := hostRead_next hm
    simp [hv] at hv'
  · obtain ⟨off, -, rfl⟩ := hostWrite_next hm
    exact absurd hv' ((writeWindow_sameLatch off size v _).keyValid_ne_true hv)

/-- R41 (a): without a key no session is open. -/
theorem State.Inv.session_of_no_key {s : State} (h : s.Inv) (hv : s.keyValid = false) : s.session = .idle := by
  by_contra hs
  simp [h.sessionNeedsKey hs] at hv

theorem execEncStart_of_no_key {s : State} (hv : s.keyValid = false) : execEncStart s = raise .invalidKeyMaterial s := by
  simp [execEncStart, hv]

theorem execDecStart_of_no_key {s : State} (hv : s.keyValid = false) : execDecStart s = raise .invalidKeyMaterial s := by
  simp [execDecStart, hv]

theorem execEncBlock_of_no_session {s : State} (hs : s.session ≠ .enc) : execEncBlock s = raise .sequenceError s := by
  simp [execEncBlock, hs]

theorem execDecBlock_of_no_session {s : State} (hs : s.session ≠ .dec) : execDecBlock s = raise .sequenceError s := by
  simp [execDecBlock, hs]

/-- Settles O25: the starts and the raw block commands check KEY_VALID; the block commands check the session, and without a
key there is none. -/
theorem keyClearDestroysTheKey : Obligations.KeyClearDestroysTheKey := by
  refine ⟨fun s => ?clear, fun s t => step_gives_key, fun s hinv hv => ?noKey⟩
  case clear =>
    have hx : exec .keyClear s = .next (completion .ok
      (endSession { s with keyIn := .zero, keyLat := .zero, klen := .none, keyValid := false })) := rfl
    exact ⟨.zero, fun i _ => KeyBytes.zero_get i, hx.trans (by rw [completion_ok]; rfl)⟩
  case noKey =>
    have hidle := hinv.session_of_no_key hv
    exact ⟨execEncStart_of_no_key hv, execDecStart_of_no_key hv, execEncBlock_of_no_session (by simp [hidle]),
      execDecBlock_of_no_session (by simp [hidle]), fun hraw => ⟨execAesEnc_of_no_key hraw hv, execAesDec_of_no_key hraw hv⟩⟩

end Sys2Proof.Machine

/-! # CBC encryption: ENC_START, ENC_BLOCK, the frame of all commands, and ciphertexts (O27, O28, O36, O41, O42) -/

namespace Sys2Proof.Machine

/-! ### ENC_START and ENC_BLOCK (R100, R101) -/

theorem execEncStart_of_key {s : State} (hv : s.keyValid = true) :
    execEncStart s = .next (completion .ok (openSession .enc s)) := by
  simp [execEncStart, hv, succeed]

/-- ENC_BLOCK with a full block left (R101). -/
theorem execEncBlock_of_full {s : State} {k : List Byte} {c : Block} (hs : s.session = .enc) (hk : cipherKey s = some k)
    (hr : 16 ≤ s.remain.toNat) (hc : c = aesEncrypt k (s.din.xor s.chain)) :
    execEncBlock s = .next (completion .ok
      { s with remain := s.remain - 16, chain := c, dout := c, outLen := 16, last := false }) := by
  simp [execEncBlock, hs, withCipherKey_of_some hk, hr, hc, succeed]

/-- ENC_BLOCK on the final block (R101). -/
theorem execEncBlock_of_final {s : State} {k : List Byte} {c : Block} (hs : s.session = .enc) (hk : cipherKey s = some k)
    (hr : s.remain.toNat < 16) (hc : c = aesEncrypt k ((padBlock s.remain.toNat s.din).xor s.chain)) :
    execEncBlock s = .next (completion .ok
      { s with remain := 0, chain := c, dout := c, outLen := 16, last := true, session := .idle }) := by
  simp [execEncBlock, hs, withCipherKey_of_some hk, hr.not_ge, hc, succeed]

/-- The padding injector's block as a byte string: the bytes left, and the pad value in the places after them (R101). -/
theorem padBlock_toList {n : Nat} (hn : n ≤ 16) (d : Block) :
    (padBlock n d).toList = d.toList.take n ++ List.replicate (16 - n) (BitVec.ofNat 8 (16 - n)) := by
  refine List.ext_getElem (by simp; omega) fun i hi _ => ?_
  have h16 : i < 16 := hi
  rw [Block.toList_getElem, padBlock, Block.get_ofFn _ h16, List.getElem_append]
  simp [hn]

/-- Settles O27: ENC_START opens the session whatever MSG_LEN is, and checks the key only. -/
theorem encStartOpensASession : Obligations.EncStartOpensASession := by
  refine fun s => ⟨fun hv => ?noKey, fun hv => ?key⟩
  case noKey => exact (execEncStart_of_no_key hv).trans (congrArg _ (completion_of_error (by decide) s))
  case key =>
    exact ⟨.zero, fun i _ => Block.zero_get i, (execEncStart_of_key hv).trans (by rw [completion_ok]; rfl)⟩

/-- Settles O28: the invariants give an open session its key operand, and REMAIN decides which block is encrypted. -/
theorem encBlockEncryptsAndPads : Obligations.EncBlockEncryptsAndPads := by
  refine fun s => ⟨fun hs => ?noSession, fun hinv hs => ?session⟩
  case noSession => exact (execEncBlock_of_no_session hs).trans (congrArg _ (completion_of_error (by decide) s))
  case session =>
    obtain ⟨k, hk⟩ := hinv.exists_cipherKey_of_session (by simp [hs])
    by_cases hr : 16 ≤ s.remain.toNat
    · refine ⟨k, s.din, _, (latchedKey_iff_cipherKey s k).mpr hk, rfl,
        fun _ => ⟨rfl, s.remain - 16, toNat_remain_sub_16 hr, ?_⟩, fun hlt => absurd hr hlt.not_ge⟩
      exact (execEncBlock_of_full hs hk hr rfl).trans (by rw [completion_ok])
    · refine ⟨k, padBlock s.remain.toNat s.din, _, (latchedKey_iff_cipherKey s k).mpr hk, rfl,
        fun hge => absurd hge hr, fun hlt => ⟨padBlock_toList hlt.le s.din, ?_⟩⟩
      exact (execEncBlock_of_final hs hk hlt rfl).trans (by rw [completion_ok])

/-! ### The frame of all commands (R25, R31, R34 to R36, R40) -/

/-- What no command writes: CONFIG, MSG_LEN, IV, DIN, WR_IGNORED, PEND_CMD and the model's own fields. -/
def State.hostFields (s : State) :
    (BitVec 16 × Bool × Word × Block × Block × Bool × Word) × Bool × List Event × BusResponse :=
  ((s.keyBits, s.irqEn, s.msgLen, s.iv, s.din, s.wrIgnored, s.pendCmd), s.rawBlockOps, s.events, s.resp)

theorem exec_hostFields {i : Instr} {s t : State} (h : exec i s = .next t) :
    t.hostFields = s.hostFields ∧ (i ≠ .keyClear → t.keyIn = s.keyIn) := by
  cases i with
  | nop => obtain rfl := execNop_next h; exact ⟨rfl, fun _ => rfl⟩
  | keyInit => obtain ⟨-, rfl⟩ | ⟨nk, -, rfl⟩ := execKeyInit_next h <;> exact ⟨rfl, fun _ => rfl⟩
  | keyClear => obtain rfl := execKeyClear_next h; exact ⟨rfl, fun hne => absurd rfl hne⟩
  | encStart => obtain ⟨-, rfl⟩ | ⟨-, rfl⟩ := execEncStart_next h <;> exact ⟨rfl, fun _ => rfl⟩
  | decStart =>
    obtain ⟨-, -, -, rfl⟩ | ⟨-, -, rfl⟩ | ⟨-, rfl⟩ := execDecStart_next h <;> exact ⟨rfl, fun _ => rfl⟩
  | encBlock =>
    obtain ⟨-, rfl⟩ | ⟨-, k, c, -, ⟨-, -, rfl⟩ | ⟨-, -, rfl⟩⟩ := execEncBlock_next h <;> exact ⟨rfl, fun _ => rfl⟩
  | decBlock =>
    obtain ⟨-, rfl⟩ | ⟨-, -, k, x, -, -, ⟨-, rfl⟩ | ⟨-, -, rfl⟩ | ⟨-, -, rfl⟩⟩ := execDecBlock_next h <;>
      exact ⟨rfl, fun _ => rfl⟩
  | abort => obtain rfl := execAbort_next h; exact ⟨rfl, fun _ => rfl⟩
  | aesEnc => obtain ⟨-, rfl⟩ | ⟨-, -, rfl⟩ | ⟨-, -, k, -, rfl⟩ := execAesEnc_next h <;> exact ⟨rfl, fun _ => rfl⟩
  | aesDec => obtain ⟨-, rfl⟩ | ⟨-, -, rfl⟩ | ⟨-, -, k, -, rfl⟩ := execAesDec_next h <;> exact ⟨rfl, fun _ => rfl⟩

/-- Settles O36: the frame of each command, field by field. -/
theorem commandsNeverWriteTheHostsRegisters : Obligations.CommandsNeverWriteTheHostsRegisters := by
  intro i s t h
  obtain ⟨hfields, hkeyIn⟩ := exec_hostFields h
  simp only [State.hostFields, Prod.mk.injEq, and_assoc] at hfields
  simpa only [hfields, true_and] using hkeyIn

/-! ### Padded messages and their blocks (R96 to R99) -/

theorem padMessage_length (m : List Byte) : (padMessage m).length = 16 * (m.length / 16 + 1) := by
  simp only [padMessage, List.length_append, List.length_replicate]
  omega

/-- Padding reads the length modulo 16 only, so a first block of 16 bytes stays in front (R97). -/
theorem padMessage_of_le {m : List Byte} (h : 16 ≤ m.length) : padMessage m = m.take 16 ++ padMessage (m.drop 16) := by
  have hmod : (m.drop 16).length % 16 = m.length % 16 := by rw [List.length_drop]; omega
  rw [padMessage, padMessage, hmod, ← List.append_assoc, List.take_append_drop]

/-- The padded form of a message shorter than a block is what the padding injector makes of a block that holds it (R97, R101). -/
theorem padMessage_of_lt {m : List Byte} {d : Block} (h : m.length < 16) (hm : m = d.toList.take m.length) :
    padMessage m = (padBlock m.length d).toList := by
  rw [padBlock_toList h.le, ← hm, padMessage, Nat.mod_eq_of_lt h]

@[simp] theorem blocksOf_nil : blocksOf [] = [] := rfl

@[simp] theorem blocksOf_length (q : List Byte) : (blocksOf q).length = q.length / 16 := by simp [blocksOf]

/-- The first 16 bytes are the first block, and the others are cut in the same way (R96). -/
@[simp] theorem blocksOf_toList_append (b : Block) (q : List Byte) : blocksOf (b.toList ++ q) = b :: blocksOf q := by
  have hlen : (b.toList ++ q).length / 16 = q.length / 16 + 1 := by simp
  have hhead : (Block.ofFn fun j => (b.toList ++ q).getD (16 * 0 + j) 0) = b := by
    refine Block.eq_of_get fun i hi => ?_
    have hib : i < b.toList.length := hi
    rw [Block.get_ofFn _ hi, Nat.mul_zero, Nat.zero_add, List.getD_append _ _ _ _ hib, List.getD_eq_getElem _ _ hib,
      Block.toList_getElem]
  have htail (i j : Nat) : (b.toList ++ q).getD (16 * (i + 1) + j) 0 = q.getD (16 * i + j) 0 := by
    rw [List.getD_append_right _ _ _ _ (by simp; omega), Block.toList_length]
    congr 1
    omega
  rw [blocksOf, hlen, List.range_succ_eq_map, List.map_cons, List.map_map, hhead]
  simp only [Function.comp_def, htail, blocksOf]

theorem blocksOf_toList (b : Block) : blocksOf b.toList = [b] := by
  simpa using blocksOf_toList_append b []

@[simp] theorem bytesOf_length (bs : List Block) : (bytesOf bs).length = 16 * bs.length := by
  simp [bytesOf, List.length_flatMap, Nat.mul_comm]

@[simp] theorem cbcEncrypt_length (k : List Byte) (v : Block) (qs : List Block) :
    (cbcEncrypt k v qs).length = qs.length := by
  induction qs generalizing v with
  | nil => rfl
  | cons q qs ih => simp [cbcEncrypt, ih]

theorem encryptMessage_length (k : List Byte) (v : Block) (m : List Byte) :
    (encryptMessage k v m).length = m.length / 16 + 1 := by
  simp [encryptMessage, padMessage_length]

/-- Settles O41: CBC keeps the number of blocks, which is that of the padded message. -/
theorem ciphertextLengthIsPaddedLength : Obligations.CiphertextLengthIsPaddedLength := by
  intro K V M
  rw [bytesOf_length, encryptMessage_length]
  omega

theorem aesEncrypt_injective (k : List Byte) : Function.Injective (aesEncrypt k) :=
  Function.LeftInverse.injective (aesDecrypt_aesEncrypt k)

theorem cbcEncrypt_head? (k : List Byte) (v : Block) (qs : List Block) :
    (cbcEncrypt k v qs).head? = qs.head?.map fun q => aesEncrypt k (q.xor v) := by
  cases qs <;> rfl

/-- Settles O42: the first block is AES_Encrypt of the first padded block xor the IV, and both are injective. -/
theorem differentIvsGiveDifferentFirstBlocks : Obligations.DifferentIvsGiveDifferentFirstBlocks := by
  intro K M V₁ V₂ _ hne heq
  obtain ⟨q, qs, hq⟩ : ∃ q qs, blocksOf (padMessage M) = q :: qs :=
    List.exists_cons_of_length_pos (by simp [padMessage_length])
  simp only [encryptMessage, cbcEncrypt_head?, hq, List.head?_cons, Option.map_some, Option.some.injEq] at heq
  have hxor := aesEncrypt_injective K heq
  rw [Block.xor_comm q V₁, Block.xor_comm q V₂] at hxor
  exact hne (Block.xor_right_injective hxor)

end Sys2Proof.Machine

/-! # Sessions on the bus, and what an encryption session computes (O43) -/

namespace Sys2Proof.Machine

/-! ### What the bus adds to a command's state (R53, R66, R72) -/

/-- The state with what a host's bus accesses add to it: PEND_CMD, the answer to a write, and the moves still to come. -/
def State.onBus (p : Word) (es : List Event) (s : State) : State :=
  { s with pendCmd := p, resp := .written, events := es }

/-- The state in which the engine finds a command that a host has issued on the bus (R66). -/
def State.issuedOnBus (p : Word) (es : List Event) (s : State) : State :=
  { s.onBus p es with busy := true, done := false }

/-- Two states with the same key operand, or both with none: outcomes that agree up to `F` for each key agree (R64). -/
theorem withCipherKey_mapNext {F : State → State} {s s' : State} {f g : List Byte → Result}
    (hk : cipherKey s' = cipherKey s) (h : ∀ k, g k = mapNext F (f k)) :
    withCipherKey s' g = mapNext F (withCipherKey s f) := by
  unfold withCipherKey
  rw [hk]
  cases cipherKey s with
  | none => rfl
  | some k => exact h k

/-- No command reads what the bus adds, and each writes BUSY and DONE itself (R67). -/
theorem exec_issuedOnBus (i : Instr) (p : Word) (es : List Event) (s : State) :
    exec i (s.issuedOnBus p es) = mapNext (State.onBus p es) (exec i s) := by
  cases i with
  | nop => rfl
  | keyInit =>
    have hk : (s.issuedOnBus p es).keyBits = s.keyBits := rfl
    unfold exec execKeyInit
    dsimp only
    rw [hk]
    cases (KLen.ofKeyBits s.keyBits).words <;> rfl
  | keyClear => rfl
  | encStart => exact ite_mapNext rfl rfl
  | decStart => exact ite_mapNext (ite_mapNext rfl rfl) rfl
  | encBlock => exact ite_mapNext (withCipherKey_mapNext rfl fun k => ite_mapNext rfl rfl) rfl
  | decBlock =>
    exact ite_mapNext (withCipherKey_mapNext rfl fun k =>
      ite_mapNext rfl (ite_mapNext rfl (ite_mapNext rfl rfl))) rfl
  | abort => rfl
  | aesEnc => exact ite_mapNext (ite_mapNext (withCipherKey_mapNext rfl fun k => rfl) rfl) rfl
  | aesDec => exact ite_mapNext (ite_mapNext (withCipherKey_mapNext rfl fun k => rfl) rfl) rfl

/-- A command completes with no command pending (R67). -/
theorem exec_busy {i : Instr} {s t : State} (h : exec i s = .next t) : t.busy = false := (exec_completes h).fields.1

/-! ### Runs of a session's moves (R71, R72) -/

/-- A run goes on from where a shorter one got to. -/
theorem run_add_of_next {m : Nat} {s t : State} (n : Nat) (h : Host.Core.run Sys2Proof.core m s = .next t) :
    Host.Core.run Sys2Proof.core (m + n) s = Host.Core.run Sys2Proof.core n t := by
  induction m generalizing s with
  | zero => cases h; rw [Nat.zero_add]
  | succ m ih =>
    obtain ⟨u, hs, hu⟩ := run_succ_next h
    rw [Nat.succ_add, run_succ_of_next _ hs, ih hu]

/-- On the bus a command of every build takes two moves: the host issues it and the engine completes it (R66, R67). -/
theorem run_commandMoves {s t : State} {i : Instr} (p : Word) (rest : List Event)
    (hi : ∀ raw, i.wellFormed raw = true) (hb : s.busy = false) (ht : exec i s = .next t) :
    Host.Core.run Sys2Proof.core 2 (s.onBus p (commandMoves i ++ rest)) = .next (t.onBus (encode i) rest) := by
  have hx : exec i (s.issuedOnBus (encode i) rest) = .next (t.onBus (encode i) rest) := by
    rw [exec_issuedOnBus, ht]; rfl
  rw [run_succ_of_issue (s := s.onBus p (commandMoves i ++ rest)) 1 hb rfl]
  exact run_succ_of_next 0 ((step_of_encode_pending rfl rfl (hi _) rfl).trans hx)

/-- A write of word `k` of IV while no command is pending, as the first step of a run (R35, R53). -/
theorem run_succ_of_write_iv {s : State} {rest : List Event} {q : Quad} (n : Nat) (k : Fin 4) (hb : s.busy = false)
    (h : s.events = .write (Config.base + (0x40 + 4 * k.val)) 4 q.toWord :: rest) :
    Host.Core.run Sys2Proof.core (n + 1) s =
      Host.Core.run Sys2Proof.core n { s with iv := s.iv.setQuad k.val q, events := rest, resp := .written } := by
  rw [run_succ_of_writeReg n (regAt_iv k.isLt) h, writeReg_iv_of_idle _ _ hb, quadOfWord_toWord]

/-- `set_iv` takes four steps and replaces IV (R71). -/
theorem run_setIvMoves {s : State} {v : Block} {rest : List Event} (n : Nat) (hb : s.busy = false)
    (h : s.events = setIvMoves v ++ rest) :
    Host.Core.run Sys2Proof.core (n + 4) s =
      Host.Core.run Sys2Proof.core n { s with iv := v, events := rest, resp := .written } :=
  Eq.trans (run_succ_of_write_iv (n + 3) 0 hb h) <| Eq.trans (run_succ_of_write_iv (n + 2) 1 hb rfl) <|
    Eq.trans (run_succ_of_write_iv (n + 1) 2 hb rfl) <| run_succ_of_write_iv n 3 hb rfl

/-- A write of MSG_LEN while no command is pending, as the first step of a run (R31, R53). -/
theorem run_succ_of_write_msgLen {s : State} {w : Word} {rest : List Event} (n : Nat) (hb : s.busy = false)
    (h : s.events = .write (Config.base + 0x14) 4 w :: rest) :
    Host.Core.run Sys2Proof.core (n + 1) s =
      Host.Core.run Sys2Proof.core n { s with msgLen := w, events := rest, resp := .written } := by
  rw [run_succ_of_writeReg n (r := .msgLen) rfl h, writeReg_msgLen_of_idle _ hb]

/-- A start on the bus takes seven moves and is the start command under its IV and length (R72). -/
theorem run_startMoves {s t : State} {start : Instr} {v : Block} {len : Nat} {rest : List Event}
    (hi : ∀ raw, start.wellFormed raw = true) (hb : s.busy = false) (hs : s.events = startMoves start v len ++ rest)
    (ht : exec start { s with iv := v, msgLen := BitVec.ofNat 32 len } = .next t) :
    Host.Core.run Sys2Proof.core 7 s = .next (t.onBus (encode start) rest) :=
  Eq.trans (run_setIvMoves 3 hb hs) <| Eq.trans (run_succ_of_write_msgLen 2 hb rfl) <|
    run_commandMoves (s := { s with iv := v, msgLen := BitVec.ofNat 32 len }) s.pendCmd rest hi hb ht

/-- A block on the bus takes six moves and is the block command with the block in DIN (R72). -/
theorem run_blockMove {s t : State} {i : Instr} {d : Block} (p : Word) (rest : List Event)
    (hi : ∀ raw, i.wellFormed raw = true) (hb : s.busy = false) (ht : exec i { s with din := d } = .next t) :
    Host.Core.run Sys2Proof.core 6 (s.onBus p (setDinMoves d ++ commandMoves i ++ rest)) =
      .next (t.onBus (encode i) rest) :=
  Eq.trans (run_setDinMoves (s := s.onBus p (setDinMoves d ++ commandMoves i ++ rest)) 2 hb (List.append_assoc ..)) <|
    run_commandMoves (s := { s with din := d }) p rest hi hb ht

/-- If the blocks of a session complete, the first does and so do the others after it. -/
theorem runBlocks_cons {i : Instr} {d : Block} {ds : List Block} {s : State} {ts : List State}
    (h : runBlocks i (d :: ds) s = some ts) :
    ∃ t ts', exec i { s with din := d } = .next t ∧ runBlocks i ds t = some ts' ∧ ts = t :: ts' := by
  unfold runBlocks at h
  split at h
  next t ht =>
    obtain ⟨ts', hts', rfl⟩ := Option.map_eq_some_iff.mp h
    exact ⟨t, ts', ht, hts', rfl⟩
  next => cases h

/-- The states after each block on the bus are those of `runBlocks`, six moves a block (R72). -/
theorem run_blockMoves {i : Instr} {ds : List Block} {s : State} {ts : List State} (p : Word) (rest : List Event)
    (s₀ : State) (hi : ∀ raw, i.wellFormed raw = true) (hb : s.busy = false) (h : runBlocks i ds s = some ts)
    {j : Nat} (hj : j < ts.length) :
    Host.Core.run Sys2Proof.core (6 * (j + 1)) (s.onBus p (blockMoves i ds ++ rest)) =
      .next ((ts.getD j s₀).onBus (encode i) (blockMoves i (ds.drop (j + 1)) ++ rest)) := by
  induction ds generalizing s ts p j with
  | nil => cases h; cases hj
  | cons d ds ih =>
    obtain ⟨t, ts, ht, hts, rfl⟩ := runBlocks_cons h
    have hfirst : Host.Core.run Sys2Proof.core 6 (s.onBus p (blockMoves i (d :: ds) ++ rest)) =
        .next (t.onBus (encode i) (blockMoves i ds ++ rest)) := by
      have hmoves : blockMoves i (d :: ds) ++ rest = setDinMoves d ++ commandMoves i ++ (blockMoves i ds ++ rest) := by
        simp [blockMoves]
      rw [hmoves]
      exact run_blockMove p _ hi hb ht
    cases j with
    | zero => exact hfirst
    | succ j =>
      rw [Nat.mul_succ, Nat.add_comm, run_add_of_next _ hfirst]
      exact ih _ (exec_busy ht) hts (Nat.lt_of_succ_lt_succ hj)

/-- A session whose commands complete started, and went on from there. -/
theorem runSession_eq_some {start block : Instr} {v : Block} {len : Nat} {ds : List Block} {s t : State}
    {ts : List State} (h : runSession start block v len ds s = some (t, ts)) :
    exec start { s with iv := v, msgLen := BitVec.ofNat 32 len } = .next t ∧ runBlocks block ds t = some ts := by
  unfold runSession at h
  split at h
  next u hu =>
    obtain ⟨us, hus, heq⟩ := Option.map_eq_some_iff.mp h
    cases heq
    exact ⟨hu, hus⟩
  next => cases h

/-- A session of commands of every build is the one that a host runs by its bus accesses (R72). -/
theorem onTheBus_of_runSession {start block : Instr} {v : Block} {len : Nat} {ds : List Block} {s t : State}
    {ts : List State} (hstart : ∀ raw, start.wellFormed raw = true) (hblock : ∀ raw, block.wellFormed raw = true)
    (h : runSession start block v len ds s = some (t, ts)) : OnTheBus start block v len ds s ts := by
  intro rest hb hs j hj
  obtain ⟨ht, hts⟩ := runSession_eq_some h
  rw [run_add_of_next _ (run_startMoves hstart hb (hs.trans (List.append_assoc ..)) ht)]
  exact run_blockMoves _ rest s hblock (exec_busy ht) hts hj

/-! ### The blocks of an encryption session (R102) -/

/-- The first block of a message is in the first block that holds it, as far as the message goes (R102). -/
theorem HoldMessage.take_head {d : Block} {ds : List Block} {m : List Byte} (h : HoldMessage (d :: ds) m) :
    m.take 16 = d.toList.take m.length := by
  obtain ⟨-, hbytes⟩ := h
  refine List.ext_getElem (by simp [Nat.min_comm]) fun j hj _ => ?_
  obtain ⟨hj16, hjm⟩ : j < 16 ∧ j < m.length := by simpa using hj
  have hd := hbytes 0 j hj16 (by omega)
  rw [Nat.mul_zero, Nat.zero_add, List.getD_eq_getElem _ _ hjm] at hd
  simpa using hd.symm

/-- The blocks after the first hold what is left of a message after its first block (R102). -/
theorem HoldMessage.tail {d : Block} {ds : List Block} {m : List Byte} (h : HoldMessage (d :: ds) m)
    (hm : 16 ≤ m.length) : HoldMessage ds (m.drop 16) := by
  obtain ⟨hlen, hbytes⟩ := h
  rw [List.length_cons] at hlen
  refine ⟨by rw [List.length_drop]; omega, fun i j hj hij => ?_⟩
  rw [List.length_drop] at hij
  have hd := hbytes (i + 1) j hj (by omega)
  rw [List.getD_cons_succ] at hd
  rw [hd, List.getD_eq_getElem?_getD, List.getD_eq_getElem?_getD, List.getElem?_drop]
  congr 2
  omega

/-- Encryption of a message of at least a block: its first block, and then the rest under the first ciphertext block (R96). -/
theorem encryptMessage_of_le {k : List Byte} {v d : Block} {m : List Byte} (hm : 16 ≤ m.length)
    (hd : m.take 16 = d.toList) : encryptMessage k v m =
      aesEncrypt k (d.xor v) :: encryptMessage k (aesEncrypt k (d.xor v)) (m.drop 16) := by
  rw [encryptMessage, padMessage_of_le hm, hd, blocksOf_toList_append, cbcEncrypt, encryptMessage]

/-- Encryption of a message shorter than a block is that of its one padded block (R96, R97). -/
theorem encryptMessage_of_lt {k : List Byte} {v d : Block} {m : List Byte} (hm : m.length < 16)
    (hd : m = d.toList.take m.length) :
    encryptMessage k v m = [aesEncrypt k ((padBlock m.length d).xor v)] := by
  rw [encryptMessage, padMessage_of_lt hm hd, blocksOf_toList, cbcEncrypt, cbcEncrypt]

/-- An encryption session is open with `n` bytes to come, under key `k` and chaining value `v` (R28, R32, R38). -/
structure State.Encrypting (s : State) (k : List Byte) (v : Block) (n : Nat) : Prop where
  session : s.session = .enc
  key : cipherKey s = some k
  chain : s.chain = v
  remain : s.remain.toNat = n

/-- A block command has succeeded and put out a block, which is the next chaining value too (R37, R38, R101). -/
structure State.HasPutOut (u : State) : Prop where
  errCode : u.errCode = .ok
  outLen : u.outLen = 16
  chain : u.chain = u.dout

/-- The final block of a session is behind it (R28, R29, R32). -/
structure State.Finished (u : State) : Prop where
  session : u.session = .idle
  last : u.last = true
  remain : u.remain = 0

/-- In an open session with a full block left, ENC_BLOCK puts out its ciphertext block and the session goes on. -/
theorem State.Encrypting.exec_full {s : State} {k : List Byte} {v : Block} {n : Nat} (hs : s.Encrypting k v n)
    (hn : 16 ≤ n) (d : Block) : ∃ t, exec .encBlock { s with din := d } = .next t ∧
      t.HasPutOut ∧ t.dout = aesEncrypt k (d.xor v) ∧ t.Encrypting k (aesEncrypt k (d.xor v)) (n - 16) := by
  obtain ⟨hsession, hkey, rfl, rfl⟩ := hs
  exact ⟨_, execEncBlock_of_full (s := { s with din := d }) hsession hkey hn rfl, ⟨rfl, rfl, rfl⟩, rfl,
    ⟨hsession, hkey, rfl, toNat_remain_sub_16 hn⟩⟩

/-- In an open session with less than a block left, ENC_BLOCK puts out the padded block's ciphertext, and that is all. -/
theorem State.Encrypting.exec_final {s : State} {k : List Byte} {v : Block} {n : Nat} (hs : s.Encrypting k v n)
    (hn : n < 16) (d : Block) : ∃ t, exec .encBlock { s with din := d } = .next t ∧
      t.HasPutOut ∧ t.dout = aesEncrypt k ((padBlock n d).xor v) ∧ t.Finished := by
  obtain ⟨hsession, hkey, rfl, rfl⟩ := hs
  exact ⟨_, execEncBlock_of_final (s := { s with din := d }) hsession hkey hn rfl, ⟨rfl, rfl, rfl⟩, rfl, ⟨rfl, rfl, rfl⟩⟩

theorem runBlocks_cons_of_next {i : Instr} {d : Block} {ds : List Block} {s t : State} {ts : List State}
    (ht : exec i { s with din := d } = .next t) (hts : runBlocks i ds t = some ts) :
    runBlocks i (d :: ds) s = some (t :: ts) := by
  simp [runBlocks, ht, hts]

/-- Block by block an open session puts out the encryption of what is left of the message, and is then finished. -/
theorem runBlocks_encBlock {ds : List Block} {s : State} {k : List Byte} {v : Block} {m : List Byte}
    (hs : s.Encrypting k v m.length) (hd : HoldMessage ds m) :
    ∃ ts, runBlocks .encBlock ds s = some ts ∧ ts.map (·.dout) = encryptMessage k v m ∧ (∀ u ∈ ts, u.HasPutOut) ∧
      ∃ u, ts.getLast? = some u ∧ u.Finished := by
  induction ds generalizing s v m with
  | nil => obtain ⟨hlen, -⟩ := hd; cases hlen
  | cons d ds ih =>
    by_cases hm : 16 ≤ m.length
    · have hblock : m.take 16 = d.toList := by rw [hd.take_head, List.take_of_length_le hm]
      obtain ⟨t, ht, hput, hdout, hopen⟩ := hs.exec_full hm d
      obtain ⟨ts, hts, houts, hputs, u, hu, hfin⟩ := ih (m := m.drop 16) (by rwa [List.length_drop]) (hd.tail hm)
      refine ⟨t :: ts, runBlocks_cons_of_next ht hts, ?_, List.forall_mem_cons.mpr ⟨hput, hputs⟩, u, ?_, hfin⟩
      · rw [List.map_cons, hdout, houts, encryptMessage_of_le hm hblock]
      · rw [List.getLast?_cons, hu, Option.getD_some]
    · have hlt : m.length < 16 := Nat.lt_of_not_ge hm
      have hblock : m = d.toList.take m.length := by rw [← hd.take_head, List.take_of_length_le hlt.le]
      obtain rfl : ds = [] := List.eq_nil_of_length_eq_zero (by simpa [Nat.div_eq_of_lt hlt] using hd.1)
      obtain ⟨t, ht, hput, hdout, hfin⟩ := hs.exec_final hlt d
      refine ⟨[t], runBlocks_cons_of_next ht rfl, ?_, List.forall_mem_singleton.mpr hput, t, rfl, hfin⟩
      rw [List.map_singleton, hdout, encryptMessage_of_lt hlt hblock]

/-- With a key latched, ENC_START opens a session for a message whose length fits MSG_LEN (R100). -/
theorem exec_encStart_encrypting {s : State} {k : List Byte} {n : Nat} (hv : s.keyValid = true)
    (hk : cipherKey s = some k) (hn : n < 2 ^ 32) (v : Block) :
    ∃ t, exec .encStart { s with iv := v, msgLen := BitVec.ofNat 32 n } = .next t ∧ t.errCode = .ok ∧
      t.Encrypting k v n :=
  ⟨_, execEncStart_of_key (s := { s with iv := v, msgLen := BitVec.ofNat 32 n }) hv, rfl,
    ⟨rfl, hk, rfl, (BitVec.toNat_ofNat n 32).trans (Nat.mod_eq_of_lt hn)⟩⟩

theorem runSession_of_next {start block : Instr} {v : Block} {len : Nat} {ds : List Block} {s t : State}
    {ts : List State} (ht : exec start { s with iv := v, msgLen := BitVec.ofNat 32 len } = .next t)
    (hts : runBlocks block ds t = some ts) : runSession start block v len ds s = some (t, ts) := by
  simp [runSession, ht, hts]

/-- Settles O43: the session opens with the message's length in REMAIN, puts out CBC_Enc of the padded message by induction
over its blocks, and is the one on the bus as every session of complete commands is. -/
theorem encryptionSessionComputesCbcOfPaddedMessage : Obligations.EncryptionSessionComputesCbcOfPaddedMessage := by
  intro s K V M ds hv hK hM hd
  obtain ⟨t, ht, hok, hopen⟩ := exec_encStart_encrypting hv ((latchedKey_iff_cipherKey s K).mp hK) hM V
  obtain ⟨ts, hts, houts, hputs, u, hu, hfin⟩ := runBlocks_encBlock hopen hd
  have hrun : runSession .encStart .encBlock V M.length ds s = some (t, ts) := runSession_of_next ht hts
  have hlen : ts.length = M.length / 16 + 1 := by rw [← encryptMessage_length K V M, ← houts, List.length_map]
  have hlast : ts.getLastD s = u := by rw [List.getLastD_eq_getLast?, hu, Option.getD_some]
  have hchain : u.chain = (encryptMessage K V M).getLastD .zero := by
    rw [← houts, List.getLastD_eq_getLast?, List.getLast?_map, hu]
    exact (hputs u (List.mem_of_getLast? hu)).chain
  refine ⟨t, ts, hrun, hok, hlen, fun w hw => ⟨(hputs w hw).errCode, (hputs w hw).outLen⟩, houts, ?_⟩
  rw [hlast]
  exact ⟨hfin.session, hfin.last, hfin.remain, hchain, onTheBus_of_runSession (fun _ => rfl) (fun _ => rfl) hrun⟩

end Sys2Proof.Machine

/-! # CBC decryption: DEC_START, DEC_BLOCK, and what a decryption session computes (O29, O30, O44 to O46) -/

namespace Sys2Proof.Machine

/-! ### The padding validator (R106, R107, R109) -/

/-- Padding byte by byte: each of the last `p` bytes is `p` (R106). -/
theorem paddedBy_iff_get (x : Block) (p : Nat) :
    PaddedBy x p ↔ 1 ≤ p ∧ p ≤ 16 ∧ ∀ i < 16, 16 - p ≤ i → x.get i = BitVec.ofNat 8 p := by
  refine and_congr_right fun _ => and_congr_right fun hp => ?_
  constructor
  · intro h i hi hle
    have hget : (x.toList.drop (16 - p))[i - (16 - p)]? = (List.replicate p (BitVec.ofNat 8 p))[i - (16 - p)]? := by rw [h]
    rw [List.getElem?_drop, Nat.add_sub_cancel' hle, List.getElem?_replicate_of_lt (by omega),
      List.getElem?_eq_getElem (show i < x.toList.length from hi), Block.toList_getElem] at hget
    exact Option.some.inj hget
  · intro h
    refine List.ext_getElem (by simp; omega) fun i hi _ => ?_
    rw [List.length_drop, Block.toList_length] at hi
    rw [List.getElem_drop, Block.toList_getElem, List.getElem_replicate]
    exact h _ (by omega) (by omega)

/-- The last byte of padding tells its length, so a block has one pad value at most (R106). -/
theorem PaddedBy.padValue_eq {x : Block} {p : Nat} (h : PaddedBy x p) : padValue x = p := by
  obtain ⟨hpos, hle, hget⟩ := (paddedBy_iff_get x p).mp h
  rw [padValue, hget 15 (by decide) (by omega), BitVec.toNat_ofNat, Nat.mod_eq_of_lt (by omega)]

/-- The validator accepts exactly the blocks with padding of the length that the last byte tells (R106, R109). -/
theorem validPadding_iff (x : Block) : validPadding x = true ↔ PaddedBy x (padValue x) := by
  have hlast : x.get 15 = BitVec.ofNat 8 (padValue x) := by simp [padValue]
  simp only [validPadding, paddedBy_iff_get, ← hlast, Bool.and_eq_true, decide_eq_true_eq, List.all_eq_true,
    List.mem_range, Bool.or_eq_true, beq_iff_eq, and_assoc, ← Nat.not_le, imp_iff_or_not]

theorem PaddedBy.validPadding_eq {x : Block} {p : Nat} (h : PaddedBy x p) : validPadding x = true := by
  rw [validPadding_iff, h.padValue_eq]
  exact h

theorem validPadding_of_not_paddedBy {x : Block} (h : ∀ p, ¬PaddedBy x p) : validPadding x = false :=
  Bool.eq_false_iff.mpr fun hv => h _ ((validPadding_iff x).mp hv)

/-- The stripped block is what stands before the padding, and zeros in its place (R107, R111). -/
theorem PaddedBy.stripPadding_toList {x : Block} {p : Nat} (h : PaddedBy x p) :
    (stripPadding x).toList = x.toList.take (16 - p) ++ List.replicate p 0 := by
  have ⟨_, hle, _⟩ := h
  refine List.ext_getElem (by simp; omega) fun i hi _ => ?_
  have h16 : i < 16 := hi
  rw [Block.toList_getElem, stripPadding, Block.get_ofFn _ h16, h.padValue_eq, List.getElem_append]
  simp

/-! ### DEC_START and DEC_BLOCK (R110, R111) -/

theorem execDecStart_of_bad_length {s : State} (hv : s.keyValid = true)
    (hl : s.msgLen.toNat = 0 ∨ s.msgLen.toNat % 16 ≠ 0) :
    execDecStart s = .next (completion .invalidCiphertextLength s) := by
  rw [execDecStart, if_pos hv, if_pos hl, raise]

theorem execDecStart_of_key {s : State} (hv : s.keyValid = true) (hpos : 0 < s.msgLen.toNat)
    (hl : s.msgLen.toNat % 16 = 0) : execDecStart s = .next (completion .ok (openSession .dec s)) := by
  rw [execDecStart, if_pos hv, if_neg (by omega), succeed]

/-- DEC_BLOCK on a block that is not the final one (R111). -/
theorem execDecBlock_of_inner {s : State} {k : List Byte} {x : Block} (hs : s.session = .dec) (hk : cipherKey s = some k)
    (hr : 16 < s.remain.toNat) (hx : x = (aesDecrypt k s.din).xor s.chain) :
    execDecBlock s = .next (completion .ok
      { s with chain := s.din, remain := s.remain - 16, dout := x, outLen := 16, last := false }) := by
  have hpos : 0 < (s.remain - 16).toNat := by rw [toNat_remain_sub_16 hr.le]; omega
  rw [execDecBlock, if_pos hs, withCipherKey_of_some hk, if_neg hr.le.not_gt]
  dsimp only
  rw [if_pos hpos, hx, succeed]

/-- What DEC_BLOCK writes on the final block whatever its padding: the session is closed (R111). -/
def State.finalDecrypted (s : State) : State :=
  { s with chain := s.din, remain := 0, last := true, session := .idle }

theorem remain_sub_16_eq_zero {r : Word} (h : r.toNat = 16) : r - 16 = 0 := sub_eq_zero.mpr (BitVec.eq_of_toNat_eq h)

/-- DEC_BLOCK on the final block: the validator decides between output and failure (R111, R128). -/
theorem execDecBlock_of_final {s : State} {k : List Byte} {x : Block} (hs : s.session = .dec) (hk : cipherKey s = some k)
    (hr : s.remain.toNat = 16) (hx : x = (aesDecrypt k s.din).xor s.chain) :
    execDecBlock s = if validPadding x then
        .next (completion .ok { s.finalDecrypted with
          dout := stripPadding x, outLen := BitVec.ofNat 5 (16 - padValue x) })
      else .next (completion .paddingValidationFailure { s.finalDecrypted with dout := .zero, outLen := 0 }) := by
  rw [execDecBlock, if_pos hs, withCipherKey_of_some hk, if_neg hr.ge.not_gt]
  dsimp only
  rw [remain_sub_16_eq_zero hr, if_neg (by decide), ← hx]
  rfl

/-- Settles O29: the key is checked before the length, and each failure is a precise one. -/
theorem decStartChecksAndOpensASession : Obligations.DecStartChecksAndOpensASession := by
  refine fun s => ⟨fun hv => ?noKey, fun hv hl => ?badLength, fun hv hpos hl => ?opens⟩
  case noKey => exact (execDecStart_of_no_key hv).trans (congrArg _ (completion_of_error (by decide) s))
  case badLength => exact (execDecStart_of_bad_length hv hl).trans (congrArg _ (completion_of_error (by decide) s))
  case opens =>
    exact ⟨.zero, fun i _ => Block.zero_get i, (execDecStart_of_key hv hpos hl).trans (by rw [completion_ok]; rfl)⟩

theorem execDecBlock_of_paddedBy {s : State} {k : List Byte} {x : Block} {p : Nat} (hs : s.session = .dec)
    (hk : cipherKey s = some k) (hr : s.remain.toNat = 16) (hx : x = (aesDecrypt k s.din).xor s.chain)
    (hp : PaddedBy x p) : execDecBlock s = .next (completion .ok { s.finalDecrypted with
      dout := stripPadding x, outLen := BitVec.ofNat 5 (16 - p) }) := by
  rw [execDecBlock_of_final hs hk hr hx, if_pos hp.validPadding_eq, hp.padValue_eq]

theorem execDecBlock_of_not_paddedBy {s : State} {k : List Byte} {x : Block} (hs : s.session = .dec)
    (hk : cipherKey s = some k) (hr : s.remain.toNat = 16) (hx : x = (aesDecrypt k s.din).xor s.chain)
    (hp : ∀ p, ¬PaddedBy x p) : execDecBlock s = .next (completion .paddingValidationFailure
      { s.finalDecrypted with dout := .zero, outLen := 0 }) := by
  rw [execDecBlock_of_final hs hk hr hx, validPadding_of_not_paddedBy hp]
  rfl

/-- Settles O30: the invariants give an open session its key operand; REMAIN decides whether the block is the final one, and
the validator what becomes of that. -/
theorem decBlockDecryptsAndValidates : Obligations.DecBlockDecryptsAndValidates := by
  refine fun s => ⟨fun hs => ?noSession, fun hinv hs => ?session⟩
  case noSession => exact (execDecBlock_of_no_session hs).trans (congrArg _ (completion_of_error (by decide) s))
  case session =>
    obtain ⟨k, hk⟩ := hinv.exists_cipherKey_of_session (by simp [hs])
    obtain ⟨hge, -⟩ := hinv.decryptRemainAligned hs
    refine ⟨k, _, s.remain - 16, (latchedKey_iff_cipherKey s k).mpr hk, rfl, toNat_remain_sub_16 hge,
      fun hr => ?inner, fun hr => ⟨fun p hp => ?valid, fun hp => ?invalid⟩⟩
    case inner => exact (execDecBlock_of_inner hs hk hr rfl).trans (by rw [completion_ok])
    case valid =>
      exact ⟨_, hp.stripPadding_toList, (execDecBlock_of_paddedBy hs hk hr rfl hp).trans (by rw [completion_ok]; rfl)⟩
    case invalid =>
      exact ⟨.zero, fun i _ => Block.zero_get i, (execDecBlock_of_not_paddedBy hs hk hr rfl hp).trans
        (by rw [completion_of_error (by decide)]; rfl)⟩

/-! ### Blocks and their bytes (R96) -/

theorem bytesOf_append (bs cs : List Block) : bytesOf (bs ++ cs) = bytesOf bs ++ bytesOf cs := List.flatMap_append

theorem bytesOf_singleton (b : Block) : bytesOf [b] = b.toList := List.flatMap_singleton ..

@[simp] theorem blocksOf_bytesOf (bs : List Block) : blocksOf (bytesOf bs) = bs := by
  induction bs with
  | nil => rfl
  | cons b bs ih => rw [bytesOf, List.flatMap_cons, blocksOf_toList_append, ← bytesOf, ih]

theorem exists_toList_eq {q : List Byte} (h : q.length = 16) : ∃ b : Block, b.toList = q := by
  refine ⟨Block.ofFn (q.getD · 0), List.ext_getElem h.symm fun i hi hiq => ?_⟩
  have h16 : i < 16 := hi
  rw [Block.toList_getElem, Block.get_ofFn _ h16, List.getD_eq_getElem _ _ hiq]

/-- A byte string of `16 n` bytes is that of `n` blocks (R96). -/
theorem exists_bytesOf_eq {n : Nat} {q : List Byte} (h : q.length = 16 * n) : ∃ bs, bs.length = n ∧ bytesOf bs = q := by
  induction n generalizing q with
  | zero => exact ⟨[], rfl, (List.eq_nil_of_length_eq_zero h).symm⟩
  | succ n ih =>
    obtain ⟨b, hb⟩ := exists_toList_eq (q := q.take 16) (by rw [List.length_take]; omega)
    obtain ⟨bs, hlen, hbs⟩ := ih (q := q.drop 16) (by rw [List.length_drop]; omega)
    refine ⟨b :: bs, by rw [List.length_cons, hlen], ?_⟩
    rw [bytesOf, List.flatMap_cons, ← bytesOf, hb, hbs, List.take_append_drop]

/-! ### CBC and padding, both ways (R96 to R99, R105 to R108) -/

@[simp] theorem cbcDecrypt_length (k : List Byte) (v : Block) (cs : List Block) :
    (cbcDecrypt k v cs).length = cs.length := by
  induction cs generalizing v with
  | nil => rfl
  | cons c cs ih => simp [cbcDecrypt, ih]

theorem cbcDecrypt_cbcEncrypt (k : List Byte) (v : Block) (qs : List Block) : cbcDecrypt k v (cbcEncrypt k v qs) = qs := by
  induction qs generalizing v with
  | nil => rfl
  | cons q qs ih => rw [cbcEncrypt, cbcDecrypt, aesDecrypt_aesEncrypt, Block.xor_cancel, ih]

theorem cbcEncrypt_cbcDecrypt (k : List Byte) (v : Block) (cs : List Block) : cbcEncrypt k v (cbcDecrypt k v cs) = cs := by
  induction cs generalizing v with
  | nil => rfl
  | cons c cs ih => rw [cbcDecrypt, cbcEncrypt, Block.xor_cancel, aesEncrypt_aesDecrypt, ih]

/-- The blocks of a padded message: the last one ends in the padding, and what stands before that is the message (R97, R107). -/
theorem exists_blocks_of_padMessage (m : List Byte) : ∃ qs x p, bytesOf (qs ++ [x]) = padMessage m ∧ PaddedBy x p ∧
    bytesOf qs ++ x.toList.take (16 - p) = m := by
  obtain ⟨bs, hlen, hbs⟩ := exists_bytesOf_eq (padMessage_length m)
  obtain ⟨qs, x, rfl⟩ := List.eq_nil_or_concat' bs |>.resolve_left (by rintro rfl; cases hlen)
  have hsplit : (bytesOf qs ++ x.toList.take (m.length % 16)) ++ x.toList.drop (m.length % 16) = padMessage m := by
    rw [List.append_assoc, List.take_append_drop, ← hbs, bytesOf_append, bytesOf_singleton]
  rw [List.length_append, List.length_singleton, Nat.add_right_cancel_iff] at hlen
  obtain ⟨hm, hpad⟩ := List.append_inj hsplit (by simp [hlen]; omega)
  have hsub : 16 - (16 - m.length % 16) = m.length % 16 := by omega
  exact ⟨qs, x, 16 - m.length % 16, hbs, ⟨by omega, Nat.sub_le .., by rw [hsub, hpad]⟩, by rw [hsub, hm]⟩

/-- What the padding of a last block leaves of some blocks, padded again, is those blocks (R97, R107). -/
theorem padMessage_of_paddedBy {qs : List Block} {x : Block} {p : Nat} (h : PaddedBy x p) :
    padMessage (bytesOf qs ++ x.toList.take (16 - p)) = bytesOf (qs ++ [x]) := by
  obtain ⟨hpos, hle, hdrop⟩ := h
  have hpad : 16 - (bytesOf qs ++ x.toList.take (16 - p)).length % 16 = p := by
    rw [List.length_append, bytesOf_length, List.length_take, Block.toList_length]
    omega
  rw [padMessage, hpad, ← hdrop, List.append_assoc, List.take_append_drop, bytesOf_append, bytesOf_singleton]

theorem length_of_cbcDecrypt_eq_append {k : List Byte} {v x : Block} {cs qs : List Block}
    (hq : cbcDecrypt k v cs = qs ++ [x]) : cs.length = qs.length + 1 := by
  rw [← cbcDecrypt_length k v cs, hq, List.length_append, List.length_singleton]

/-- The document's `decrypt` of some blocks whose last decrypts to one with padding (R108). -/
theorem decryptMessage_of_paddedBy {k : List Byte} {v x : Block} {cs qs : List Block} {p : Nat}
    (hq : cbcDecrypt k v cs = qs ++ [x]) (h : PaddedBy x p) :
    decryptMessage k v (bytesOf cs) = .ok (bytesOf qs ++ x.toList.take (16 - p)) := by
  have hlen := length_of_cbcDecrypt_eq_append hq
  have ⟨_, hle, _⟩ := h
  have htake : (bytesOf (qs ++ [x])).take (16 * cs.length - p) = bytesOf qs ++ x.toList.take (16 - p) := by
    have hn : 16 * cs.length - p = (bytesOf qs).length + (16 - p) := by rw [bytesOf_length]; omega
    rw [hn, bytesOf_append, bytesOf_singleton, List.take_length_add_append]
  simp [decryptMessage, hlen, hq, h.validPadding_eq, h.padValue_eq, ← htake]

theorem decryptMessage_of_not_paddedBy {k : List Byte} {v x : Block} {cs qs : List Block}
    (hq : cbcDecrypt k v cs = qs ++ [x]) (h : ∀ p, ¬PaddedBy x p) :
    decryptMessage k v (bytesOf cs) = .error .paddingValidationFailure := by
  have hlen := length_of_cbcDecrypt_eq_append hq
  simp [decryptMessage, hlen, hq, validPadding_of_not_paddedBy h]

/-- The document's `decrypt` of a block or more answers what its padding leaves, or fails for want of padding (R108). -/
theorem decryptMessage_cases {cs : List Block} (h : cs ≠ []) (k : List Byte) (v : Block) :
    (∃ qs x p, cbcDecrypt k v cs = qs ++ [x] ∧ PaddedBy x p ∧
      decryptMessage k v (bytesOf cs) = .ok (bytesOf qs ++ x.toList.take (16 - p))) ∨
    decryptMessage k v (bytesOf cs) = .error .paddingValidationFailure := by
  obtain ⟨qs, x, hq⟩ : ∃ qs x, cbcDecrypt k v cs = qs ++ [x] := by
    refine (List.eq_nil_or_concat' _).resolve_left fun hnil => h (List.eq_nil_of_length_eq_zero ?_)
    rw [← cbcDecrypt_length k v cs, hnil, List.length_nil]
  by_cases hp : ∃ p, PaddedBy x p
  · obtain ⟨p, hp⟩ := hp
    exact .inl ⟨qs, x, p, hq, hp, decryptMessage_of_paddedBy hq hp⟩
  · exact .inr (decryptMessage_of_not_paddedBy hq (not_exists.mp hp))

/-- The document's `decrypt` answers a message exactly for the blocks that its `encrypt` makes of that message (R99, R108). -/
theorem decryptMessage_bytesOf_eq_ok_iff (k : List Byte) (v : Block) (cs : List Block) (m : List Byte) :
    decryptMessage k v (bytesOf cs) = .ok m ↔ cs = encryptMessage k v m := by
  constructor
  · intro h
    have hcs : cs ≠ [] := by
      rintro rfl
      simp [decryptMessage, bytesOf] at h
    obtain ⟨qs, x, p, hq, hp, hok⟩ | hfail := decryptMessage_cases hcs k v
    · obtain rfl : bytesOf qs ++ x.toList.take (16 - p) = m := Except.ok.inj (hok.symm.trans h)
      rw [encryptMessage, padMessage_of_paddedBy hp, blocksOf_bytesOf, ← hq, cbcEncrypt_cbcDecrypt]
    · cases hfail.symm.trans h
  · rintro rfl
    obtain ⟨qs, x, p, hbytes, hp, hm⟩ := exists_blocks_of_padMessage m
    have hq : cbcDecrypt k v (encryptMessage k v m) = qs ++ [x] := by
      rw [encryptMessage, cbcDecrypt_cbcEncrypt, ← hbytes, blocksOf_bytesOf]
    rw [decryptMessage_of_paddedBy hq hp, hm]

/-! ### The blocks of a decryption session (R113) -/

/-- A decryption session is open with `n` bytes to come, under key `k` and chaining value `v` (R28, R32, R38). -/
structure State.Decrypting (s : State) (k : List Byte) (v : Block) (n : Nat) : Prop where
  session : s.session = .dec
  key : cipherKey s = some k
  chain : s.chain = v
  remain : s.remain.toNat = n

/-- A block command has succeeded and put out a full block (R37, R111). -/
structure State.HasPutOutFull (u : State) : Prop where
  errCode : u.errCode = .ok
  outLen : u.outLen = 16

/-- The final block of a decryption session is behind it, and decrypted to `x`: stripped of its padding if it has some, and a
PaddingValidationFailure without output if it has none (R111, R112). -/
structure State.HasValidated (u : State) (x : Block) : Prop where
  valid : ∀ p, PaddedBy x p → u.errCode = .ok ∧ u.outLen = BitVec.ofNat 5 (16 - p) ∧
    u.dout.toList = x.toList.take (16 - p) ++ List.replicate p 0
  invalid : (∀ p, ¬PaddedBy x p) → u.errCode = .paddingValidationFailure ∧ u.outLen = 0 ∧ ∀ i < 16, u.dout.get i = 0

/-- The states `ts` have put out the decrypted blocks `qs`: each but the last in full, and the last one validated (R113). -/
def PutOutDecrypted (ts : List State) (qs : List Block) : Prop :=
  ∃ us u x, ts = us ++ [u] ∧ qs = us.map (·.dout) ++ [x] ∧ (∀ w ∈ us, w.HasPutOutFull) ∧ u.HasValidated x

theorem PutOutDecrypted.singleton {u : State} {x : Block} (h : u.HasValidated x) : PutOutDecrypted [u] [x] :=
  ⟨[], u, x, rfl, rfl, by simp, h⟩

theorem PutOutDecrypted.cons {w : State} {ts : List State} {qs : List Block} (hw : w.HasPutOutFull)
    (h : PutOutDecrypted ts qs) : PutOutDecrypted (w :: ts) (w.dout :: qs) := by
  obtain ⟨us, u, x, rfl, rfl, hfull, hval⟩ := h
  exact ⟨w :: us, u, x, rfl, rfl, List.forall_mem_cons.mpr ⟨hw, hfull⟩, hval⟩

/-- In an open session with more than a block left, DEC_BLOCK puts out its decrypted block and the session goes on. -/
theorem State.Decrypting.exec_inner {s : State} {k : List Byte} {v : Block} {n : Nat} (hs : s.Decrypting k v n)
    (hn : 16 < n) (d : Block) : ∃ t, exec .decBlock { s with din := d } = .next t ∧
      t.HasPutOutFull ∧ t.dout = (aesDecrypt k d).xor v ∧ t.Decrypting k d (n - 16) := by
  obtain ⟨hsession, hkey, rfl, rfl⟩ := hs
  exact ⟨_, execDecBlock_of_inner (s := { s with din := d }) hsession hkey hn rfl, ⟨rfl, rfl⟩, rfl,
    ⟨hsession, hkey, rfl, toNat_remain_sub_16 hn.le⟩⟩

/-- In an open session with one block left, DEC_BLOCK validates the decrypted block. -/
theorem State.Decrypting.exec_final {s : State} {k : List Byte} {v : Block} (hs : s.Decrypting k v 16) (d : Block) :
    ∃ t, exec .decBlock { s with din := d } = .next t ∧ t.HasValidated ((aesDecrypt k d).xor v) := by
  obtain ⟨hsession, hkey, rfl, hr⟩ := hs
  by_cases hp : ∃ p, PaddedBy ((aesDecrypt k d).xor s.chain) p
  · obtain ⟨p, hp⟩ := hp
    refine ⟨_, execDecBlock_of_paddedBy (s := { s with din := d }) hsession hkey hr rfl hp,
      fun p' hp' => ?_, fun hnone => absurd hp (hnone p)⟩
    obtain rfl : p = p' := hp.padValue_eq.symm.trans hp'.padValue_eq
    exact ⟨rfl, rfl, hp.stripPadding_toList⟩
  · have hnone := not_exists.mp hp
    exact ⟨_, execDecBlock_of_not_paddedBy (s := { s with din := d }) hsession hkey hr rfl hnone,
      fun p hp => absurd hp (hnone p), fun _ => ⟨rfl, rfl, fun i _ => Block.zero_get i⟩⟩

/-- Block by block an open session puts out CBC_Dec of the blocks that it is to decrypt. -/
theorem runBlocks_decBlock {cs : List Block} {s : State} {k : List Byte} {v : Block}
    (hs : s.Decrypting k v (16 * cs.length)) (hcs : cs ≠ []) :
    ∃ ts, runBlocks .decBlock cs s = some ts ∧ PutOutDecrypted ts (cbcDecrypt k v cs) := by
  induction cs generalizing s v with
  | nil => exact absurd rfl hcs
  | cons c cs ih =>
    by_cases hrest : cs = []
    · subst hrest
      obtain ⟨t, ht, hval⟩ := hs.exec_final c
      exact ⟨[t], runBlocks_cons_of_next ht rfl, .singleton hval⟩
    · have hpos := List.length_pos_iff.mpr hrest
      obtain ⟨t, ht, hfull, hdout, hopen⟩ := hs.exec_inner (by rw [List.length_cons]; omega) c
      obtain ⟨ts, hts, hout⟩ := ih (by simpa [Nat.mul_succ] using hopen) hrest
      refine ⟨t :: ts, runBlocks_cons_of_next ht hts, ?_⟩
      rw [cbcDecrypt, ← hdout]
      exact hout.cons hfull

/-- With a key latched, DEC_START opens a session for a number of blocks whose length fits MSG_LEN (R110). -/
theorem exec_decStart_decrypting {s : State} {k : List Byte} {n : Nat} (hv : s.keyValid = true)
    (hk : cipherKey s = some k) (hpos : 0 < n) (hn : 16 * n < 2 ^ 32) (v : Block) :
    ∃ t, exec .decStart { s with iv := v, msgLen := BitVec.ofNat 32 (16 * n) } = .next t ∧ t.errCode = .ok ∧
      t.Decrypting k v (16 * n) := by
  have hlen : (BitVec.ofNat 32 (16 * n)).toNat = 16 * n := (BitVec.toNat_ofNat _ 32).trans (Nat.mod_eq_of_lt hn)
  exact ⟨_, execDecStart_of_key (s := { s with iv := v, msgLen := BitVec.ofNat 32 (16 * n) }) hv
    (by dsimp only; omega) (by dsimp only; omega), rfl, ⟨rfl, hk, rfl, hlen⟩⟩

/-- A decryption session of blocks that fit MSG_LEN puts out their CBC_Dec. -/
theorem runSession_decrypt {s : State} {k : List Byte} {cs : List Block} (hv : s.keyValid = true) (hk : s.LatchedKey k)
    (hcs : cs ≠ []) (hlen : 16 * cs.length < 2 ^ 32) (v : Block) :
    ∃ t ts, runSession .decStart .decBlock v (16 * cs.length) cs s = some (t, ts) ∧ t.errCode = .ok ∧
      PutOutDecrypted ts (cbcDecrypt k v cs) := by
  obtain ⟨t, ht, hok, hopen⟩ := exec_decStart_decrypting hv ((latchedKey_iff_cipherKey s k).mp hk)
    (List.length_pos_iff.mpr hcs) hlen v
  obtain ⟨ts, hts, hout⟩ := runBlocks_decBlock hopen hcs
  exact ⟨t, ts, runSession_of_next ht hts, hok, hout⟩

/-! ### What a session outputs is the document's `decrypt` (R108, R113) -/

theorem State.HasPutOutFull.validOutput_eq {u : State} (h : u.HasPutOutFull) : u.validOutput = u.dout.toList := by
  rw [State.validOutput, h.outLen]
  rfl

theorem State.HasValidated.validOutput_eq {u : State} {x : Block} {p : Nat} (h : u.HasValidated x) (hp : PaddedBy x p) :
    u.validOutput = x.toList.take (16 - p) := by
  obtain ⟨-, houtLen, hdout⟩ := h.valid p hp
  rw [State.validOutput, houtLen, hdout, toNat_strippedLength, List.take_left' (by simp)]

/-- The valid output of a session that has validated its last block is the document's `decrypt`. -/
theorem decryptMessage_eq_validOutput {k : List Byte} {v x : Block} {cs : List Block} {us : List State} {u : State} {p : Nat}
    (hq : cbcDecrypt k v cs = us.map (·.dout) ++ [x]) (hfull : ∀ w ∈ us, w.HasPutOutFull) (hval : u.HasValidated x)
    (hp : PaddedBy x p) : decryptMessage k v (bytesOf cs) = .ok ((us ++ [u]).flatMap (·.validOutput)) := by
  have hus : us.flatMap (·.validOutput) = bytesOf (us.map (·.dout)) := by
    rw [bytesOf, List.flatMap_map]
    exact List.flatMap_congr fun w hw => (hfull w hw).validOutput_eq
  rw [decryptMessage_of_paddedBy hq hp, List.flatMap_append, List.flatMap_singleton, hus, hval.validOutput_eq hp]

/-- A decryption session succeeds in every command and outputs what the document's `decrypt` answers, or its last command is
a PaddingValidationFailure and `decrypt` is too. -/
theorem PutOutDecrypted.cases {k : List Byte} {v : Block} {cs : List Block} {ts : List State}
    (h : PutOutDecrypted ts (cbcDecrypt k v cs)) :
    ((∀ w ∈ ts, w.errCode = .ok) ∧ decryptMessage k v (bytesOf cs) = .ok (ts.flatMap (·.validOutput))) ∨
    ((∀ s, (ts.getLastD s).errCode = .paddingValidationFailure) ∧
      decryptMessage k v (bytesOf cs) = .error .paddingValidationFailure) := by
  obtain ⟨us, u, x, rfl, hq, hfull, hval⟩ := h
  by_cases hp : ∃ p, PaddedBy x p
  · obtain ⟨p, hp⟩ := hp
    obtain ⟨hok, -, -⟩ := hval.valid p hp
    refine .inl ⟨List.forall_mem_append.mpr ⟨fun w hw => (hfull w hw).errCode, List.forall_mem_singleton.mpr hok⟩, ?_⟩
    exact decryptMessage_eq_validOutput hq hfull hval hp
  · have hnone := not_exists.mp hp
    obtain ⟨herr, -, -⟩ := hval.invalid hnone
    exact .inr ⟨fun s => by rwa [List.getLastD_concat], decryptMessage_of_not_paddedBy hq hnone⟩

/-- Settles O44: the session puts out CBC_Dec block by block, the last block's padding decides for the session and for the
document alike, and the session is the one on the bus as every session of complete commands is. -/
theorem decryptionSessionComputesDecrypt : Obligations.DecryptionSessionComputesDecrypt := by
  intro s K V cs hv hK hcs hlen
  obtain ⟨t, ts, hrun, hok, us, u, x, rfl, hq, hfull, hval⟩ := runSession_decrypt hv hK hcs hlen V
  have hcount : cs.length = us.length + 1 := by rw [length_of_cbcDecrypt_eq_append hq, List.length_map]
  refine ⟨t, us ++ [u], hrun, hok, by simp [hcount], fun i hi => ?inner, ?valid, ?invalid,
    onTheBus_of_runSession (fun _ => rfl) (fun _ => rfl) hrun⟩
  case inner =>
    have hi' : i < us.length := by omega
    have hu : (us ++ [u]).getD i s = us[i] := by rw [List.getD_append _ _ _ _ hi', List.getD_eq_getElem _ _ hi']
    have hx : (cbcDecrypt K V cs).getD i .zero = us[i].dout := by
      rw [hq, List.getD_append _ _ _ _ (by rwa [List.length_map]), List.getD_eq_getElem _ _ (by rwa [List.length_map]),
        List.getElem_map]
    rw [hu, hx]
    exact ⟨(hfull _ (List.getElem_mem hi')).errCode, (hfull _ (List.getElem_mem hi')).outLen, rfl⟩
  case valid =>
    rw [hq, List.getLastD_concat, List.getLastD_concat]
    intro p hp
    obtain ⟨hok, houtLen, hdout⟩ := hval.valid p hp
    exact ⟨hok, houtLen, hdout, decryptMessage_eq_validOutput hq hfull hval hp⟩
  case invalid =>
    rw [hq, List.getLastD_concat, List.getLastD_concat]
    intro hnone
    obtain ⟨herr, houtLen, hzero⟩ := hval.invalid hnone
    exact ⟨herr, houtLen, hzero, decryptMessage_of_not_paddedBy hq hnone⟩

/-- Settles O45: a message is what `decrypt` answers for its own encryption, and the two sessions compute the two. -/
theorem roundTripRecoversTheMessage : Obligations.RoundTripRecoversTheMessage := by
  refine ⟨fun K V M _ => (decryptMessage_bytesOf_eq_ok_iff K V _ M).mpr rfl, fun s s' K V M ds hv hK hv' hK' hlen hd => ?_⟩
  obtain ⟨t, ts, henc, -, hcount, -, houts, -⟩ :=
    encryptionSessionComputesCbcOfPaddedMessage s K V M ds hv hK (by omega) hd
  have hmap : (ts.map (·.dout)).length = ts.length := List.length_map ..
  obtain ⟨u, us, hdec, -, hout⟩ := runSession_decrypt (cs := ts.map (·.dout)) hv' hK'
    (List.ne_nil_of_length_pos (by omega)) (by omega) V
  rw [hmap] at hdec
  refine ⟨t, ts, u, us, henc, hdec, ?_⟩
  have hM : decryptMessage K V (bytesOf (ts.map (·.dout))) = .ok M := (decryptMessage_bytesOf_eq_ok_iff ..).mpr houts
  obtain ⟨hok, hdecrypt⟩ | ⟨-, hfail⟩ := hout.cases
  · exact ⟨hok, Except.ok.inj (hdecrypt.symm.trans hM)⟩
  · cases hM.symm.trans hfail

/-- Settles O46: `decrypt` answers the message for its own encryption alone, and the session computes `decrypt`. -/
theorem tamperedCiphertextIsNotTheMessage : Obligations.TamperedCiphertextIsNotTheMessage := by
  refine ⟨fun K V M C' _ hlen hne => ?message, fun s K V M cs hv hK hlen hcount hne => ?session⟩
  case message =>
    rw [bytesOf_length] at hlen
    obtain ⟨cs, hcount, rfl⟩ := exists_bytesOf_eq hlen
    rw [encryptMessage_length] at hcount
    have hcs : cs ≠ [] := List.ne_nil_of_length_pos (by omega)
    obtain ⟨qs, x, p, -, -, hok⟩ | hfail := decryptMessage_cases hcs K V
    · refine .inr ⟨_, hok, fun hM => hne ?_⟩
      rw [hM] at hok
      exact congrArg bytesOf ((decryptMessage_bytesOf_eq_ok_iff K V cs M).mp hok)
    · exact .inl hfail
  case session =>
    rw [encryptMessage_length] at hcount
    obtain ⟨t, ts, hrun, -, hout⟩ := runSession_decrypt hv hK (List.ne_nil_of_length_pos (by omega)) hlen V
    refine ⟨t, ts, hrun, ?_⟩
    obtain ⟨-, hdecrypt⟩ | ⟨hfail, -⟩ := hout.cases
    · exact .inr fun hM => hne ((decryptMessage_bytesOf_eq_ok_iff K V cs M).mp (hM ▸ hdecrypt))
    · exact .inl (hfail s)

end Sys2Proof.Machine

/-! # Control: NOP and ABORT, and the acceptance of commands by session state (O23, O32) -/

namespace Sys2Proof.Machine

/-! ### NOP and ABORT (R117, R118) -/

/-- Settles O23: both complete with success, NOP from the state as it stands and ABORT from the one whose session and data
path it has cleared. -/
theorem nopAndAbortComplete : Obligations.NopAndAbortComplete := by
  refine fun s => ⟨?nop, .zero, fun i _ => Block.zero_get i, ?abort⟩
  case nop => exact congrArg Host.Outcome.next (completion_ok s)
  case abort =>
    have hx : exec .abort s = .next (completion .ok
      { endSession s with chain := .zero, dout := .zero, outLen := 0, last := false }) := rfl
    exact hx.trans (by rw [completion_ok]; rfl)

/-! ### The code of each command and the session it leaves (R119) -/

/-- The key lengths that KEY_INIT supports (R93). -/
theorem KLen.ofKeyBits_eq_none_iff (b : BitVec 16) : KLen.ofKeyBits b = .none ↔ b ∉ [128, 192, 256] := by
  simp only [KLen.ofKeyBits, List.mem_cons, List.not_mem_nil, or_false, not_or]
  split_ifs with h128 h192 h256
  · exact iff_of_false nofun fun ⟨hne, _, _⟩ => hne h128
  · exact iff_of_false nofun fun ⟨_, hne, _⟩ => hne h192
  · exact iff_of_false nofun fun ⟨_, _, hne⟩ => hne h256
  · exact iff_of_true rfl ⟨h128, h192, h256⟩

theorem execKeyInit_acceptance {s t : State} (h : execKeyInit s = .next t) :
    (s.keyBits ∈ [128, 192, 256] → t.errCode = .ok ∧ t.session = .idle) ∧
    (s.keyBits ∉ [128, 192, 256] → t.errCode = .unsupportedKeyLength ∧ t.session = s.session) := by
  obtain ⟨hnone, rfl⟩ | ⟨nk, hw, rfl⟩ := execKeyInit_next h
  · exact ⟨fun hmem => absurd hmem ((KLen.ofKeyBits_eq_none_iff _).mp hnone), fun _ => ⟨rfl, rfl⟩⟩
  · refine ⟨fun _ => ⟨rfl, rfl⟩, fun hnot => ?_⟩
    rw [(KLen.ofKeyBits_eq_none_iff _).mpr hnot] at hw
    cases hw

theorem execEncBlock_acceptance {s t : State} (h : execEncBlock s = .next t) (hs : s.session = .enc) :
    t.errCode = .ok ∧ t.session = if s.remain.toNat < 16 then .idle else .enc := by
  obtain ⟨hne, -⟩ | ⟨-, k, c, -, ⟨hr, -, rfl⟩ | ⟨hr, -, rfl⟩⟩ := execEncBlock_next h
  · exact absurd hs hne
  · exact ⟨rfl, by rw [if_neg hr.not_gt]; exact hs⟩
  · exact ⟨rfl, by rw [if_pos hr]; rfl⟩

theorem execDecBlock_acceptance {s t : State} (h : execDecBlock s = .next t) (hs : s.session = .dec) :
    (t.errCode = .ok ∨ t.errCode = .paddingValidationFailure) ∧
      t.session = if s.remain.toNat = 16 then .idle else .dec := by
  obtain ⟨hne, -⟩ | ⟨-, -, k, x, -, -, ⟨hr, rfl⟩ | ⟨hr, -, rfl⟩ | ⟨hr, -, rfl⟩⟩ := execDecBlock_next h
  · exact absurd hs hne
  · exact ⟨.inl rfl, by rw [if_neg hr.ne']; exact hs⟩
  · exact ⟨.inl rfl, by rw [if_pos hr]; rfl⟩
  · exact ⟨.inr rfl, by rw [if_pos hr]; rfl⟩

/-- With a key a raw block command leaves the session as it was (R91, R92). -/
theorem exec_raw_of_key {i : Instr} {s : State} (hinv : s.Inv) (hv : s.keyValid = true) (hraw : s.rawBlockOps = true)
    (hi : i = .aesEnc ∨ i = .aesDec) : ∃ t, exec i s = .next t ∧ t.errCode = .ok ∧ t.session = s.session := by
  obtain ⟨k, hk⟩ := hinv.exists_cipherKey hv
  obtain rfl | rfl := hi
  · exact ⟨_, execAesEnc_of_key hraw hv hk, rfl, rfl⟩
  · exact ⟨_, execAesDec_of_key hraw hv hk, rfl, rfl⟩

/-- Without a key the starts and the raw block commands fail in the same way (R124). -/
theorem exec_of_no_key {i : Instr} {s : State} (hv : s.keyValid = false)
    (hi : i = .encStart ∨ i = .decStart ∨ (s.rawBlockOps = true ∧ (i = .aesEnc ∨ i = .aesDec))) :
    exec i s = .next (completion .invalidKeyMaterial s) := by
  obtain rfl | rfl | ⟨hraw, rfl | rfl⟩ := hi
  · exact execEncStart_of_no_key hv
  · exact execDecStart_of_no_key hv
  · exact execAesEnc_of_no_key hraw hv
  · exact execAesDec_of_no_key hraw hv

/-- Settles O32, row by row: by the invariants each command completes, and without a key no session is open. -/
theorem commandAcceptanceBySession : Obligations.CommandAcceptanceBySession := by
  refine fun s hinv => ⟨⟨_, rfl, rfl, rfl⟩, ?keyInit, ⟨_, rfl, rfl, rfl⟩, ⟨_, rfl, rfl, rfl⟩,
    fun hv => ⟨⟨_, execEncStart_of_key hv, rfl, rfl⟩, fun hpos hl => ⟨_, execDecStart_of_key hv hpos hl, rfl, rfl⟩,
      fun hraw i hi => exec_raw_of_key hinv hv hraw hi⟩,
    fun hs => ?encBlock, fun hs => ⟨_, execEncBlock_of_no_session hs, rfl, rfl⟩,
    fun hs => ?decBlock, fun hs => ⟨_, execDecBlock_of_no_session hs, rfl, rfl⟩,
    fun hv => ?noKey, fun hb hw => ?illegal⟩
  case keyInit =>
    obtain ⟨t, ht⟩ := execKeyInit_progress s
    exact ⟨t, ht, execKeyInit_acceptance ht⟩
  case encBlock =>
    obtain ⟨t, ht⟩ := execEncBlock_progress hinv
    exact ⟨t, ht, execEncBlock_acceptance ht hs⟩
  case decBlock =>
    obtain ⟨t, ht⟩ := execDecBlock_progress hinv
    exact ⟨t, ht, execDecBlock_acceptance ht hs⟩
  case noKey =>
    have hidle := hinv.session_of_no_key hv
    exact ⟨hidle, fun i hi => ⟨_, exec_of_no_key hv hi, rfl, hidle⟩⟩
  case illegal =>
    obtain ⟨e, he⟩ := decode_error_of_illegalWord hw
    exact ⟨_, engineMove_of_decode_error hb he, rfl, rfl⟩

end Sys2Proof.Machine

/-! # Exceptions: the interrupt output, and the code of every completion (O20, O33) -/

namespace Sys2Proof.Machine

/-! ### IRQ (R134) -/

theorem State.irq_eq_true_iff (s : State) : s.irq = true ↔ s.done = true ∧ s.irqEn = true := Bool.and_eq_true_iff

theorem State.irq_of_not_done {s : State} (h : s.done = false) : s.irq = false := by simp [State.irq, h]

theorem State.irq_of_not_irqEn {s : State} (h : s.irqEn = false) : s.irq = false := by simp [State.irq, h]

theorem State.irq_of_done {s : State} (h : s.done = true) : s.irq = s.irqEn := by simp [State.irq, h]

/-- CONFIG is a host's register, which no move of the engine writes (R25). -/
theorem engineMove_irqEn {s t : State} (h : engineMove s = .next t) : t.irqEn = s.irqEn := by
  obtain ⟨-, rfl⟩ | ⟨-, i, -, hx⟩ | ⟨-, -, rfl⟩ := engineMove_next h
  · rfl
  · exact congrArg (·.1.2.1) (exec_hostFields hx).1
  · rfl

/-- A 4-byte write at a register's offset is that register's write, answered (R53). -/
theorem writeWindow_of_regAt {off : Nat} {r : Reg} (hr : regAt off = some r) (v : Word) (s : State) :
    writeWindow off 4 v s = { writeReg r v s with resp := .written } := by
  simp [writeWindow, accessedReg, hr]

/-- Settles O20: a completion sets DONE and keeps IRQ_EN; an issue, a write of 1 to STATUS bit 1 and a reset leave DONE = 0, and
the write of CONFIG leaves IRQ_EN = 0. -/
theorem irqFollowsDoneAndEnable : Obligations.IrqFollowsDoneAndEnable := by
  refine ⟨State.irq_eq_true_iff, fun s t hb h => ?completion, fun s v hb => ?issue, fun s v hv => ?clear,
    fun s v hb hv => ?mask, fun s => State.irq_of_not_done rfl⟩
  case completion =>
    obtain ⟨-, hdone, -⟩ := (engineMove_completes hb h).1.fields
    rw [State.irq_of_done hdone, engineMove_irqEn h]
  case issue =>
    rw [writeWindow_of_regAt (r := .cmd) rfl, writeReg_cmd_of_idle v hb]
    exact State.irq_of_not_done rfl
  case clear =>
    rw [writeWindow_of_regAt (r := .status) rfl]
    have hdone : (writeStatus v s).done = false := by simp [hv]
    exact State.irq_of_not_done hdone
  case mask =>
    rw [writeWindow_of_regAt (r := .config) rfl, writeReg_config_of_idle v hb]
    exact ⟨State.irq_of_not_irqEn hv, rfl⟩

/-! ### The code of a completion (R121, R132) -/

theorem ErrCode.code_injective : Function.Injective ErrCode.code := by
  intro a b
  cases a <;> cases b <;> decide

/-- The words that decode to no command are the illegal ones (R69). -/
theorem decode_error_iff_illegalWord (raw : Bool) (w : Word) : (∃ e, decode raw w = .error e) ↔ IllegalWord raw w := by
  refine ⟨fun ⟨e, he⟩ => ?_, decode_error_of_illegalWord⟩
  have hnone : ¬∃ i, decode raw w = .ok i := by simp [he]
  rw [exists_decode_ok_iff] at hnone
  unfold IllegalWord
  cases raw <;> simp at hnone ⊢ <;> omega

/-- The key lengths that KEY_INIT refuses, as numbers (R93). -/
theorem KLen.ofKeyBits_eq_none_iff_toNat (b : BitVec 16) :
    KLen.ofKeyBits b = .none ↔ b.toNat ≠ 128 ∧ b.toNat ≠ 192 ∧ b.toNat ≠ 256 := by
  simp [KLen.ofKeyBits_eq_none_iff, ← BitVec.toNat_inj]

/-- R121's table: what the pending command and its operands must be for a completion that reports an error. -/
def State.FailsWith (s : State) : ErrCode → Prop
  | .ok | .entropySourceUnavailable | .invalidIVLength | .cipherInitializationFailure => False
  | .unsupportedKeyLength => decode s.rawBlockOps s.pendCmd = .ok .keyInit ∧
      s.keyBits.toNat ≠ 128 ∧ s.keyBits.toNat ≠ 192 ∧ s.keyBits.toNat ≠ 256
  | .invalidKeyMaterial => s.keyValid = false ∧ ∃ i, decode s.rawBlockOps s.pendCmd = .ok i ∧
      (i = .encStart ∨ i = .decStart ∨ i = .aesEnc ∨ i = .aesDec)
  | .invalidCiphertextLength => decode s.rawBlockOps s.pendCmd = .ok .decStart ∧ s.keyValid = true ∧
      (s.msgLen.toNat = 0 ∨ s.msgLen.toNat % 16 ≠ 0)
  | .paddingValidationFailure => decode s.rawBlockOps s.pendCmd = .ok .decBlock ∧ s.session = .dec ∧
      s.remain.toNat = 16 ∧ ∀ K, s.LatchedKey K → ∀ p, ¬PaddedBy ((aesDecrypt K s.din).xor s.chain) p
  | .illegalCommand => IllegalWord s.rawBlockOps s.pendCmd
  | .sequenceError => (decode s.rawBlockOps s.pendCmd = .ok .encBlock ∧ s.session ≠ .enc) ∨
      (decode s.rawBlockOps s.pendCmd = .ok .decBlock ∧ s.session ≠ .dec)

/-- A command that fails met its row of the table. -/
theorem exec_failsWith {i : Instr} {s t : State} (hd : decode s.rawBlockOps s.pendCmd = .ok i) (h : exec i s = .next t)
    (herr : t.errCode ≠ .ok) : s.FailsWith t.errCode := by
  obtain ⟨-, -, hwf⟩ := decode_ok hd
  cases i with
  | nop => obtain rfl := execNop_next h; exact absurd rfl herr
  | keyInit =>
    obtain ⟨hnone, rfl⟩ | ⟨nk, -, rfl⟩ := execKeyInit_next h
    · exact ⟨hd, (KLen.ofKeyBits_eq_none_iff_toNat _).mp hnone⟩
    · exact absurd rfl herr
  | keyClear => obtain rfl := execKeyClear_next h; exact absurd rfl herr
  | encStart =>
    obtain ⟨-, rfl⟩ | ⟨hv, rfl⟩ := execEncStart_next h
    · exact absurd rfl herr
    · exact ⟨hv, _, hd, .inl rfl⟩
  | decStart =>
    obtain ⟨-, -, -, rfl⟩ | ⟨hv, hlen, rfl⟩ | ⟨hv, rfl⟩ := execDecStart_next h
    · exact absurd rfl herr
    · exact ⟨hd, hv, hlen⟩
    · exact ⟨hv, _, hd, .inr (.inl rfl)⟩
  | encBlock =>
    obtain ⟨hs, rfl⟩ | ⟨-, k, c, -, ⟨-, -, rfl⟩ | ⟨-, -, rfl⟩⟩ := execEncBlock_next h
    · exact .inl ⟨hd, hs⟩
    · exact absurd rfl herr
    · exact absurd rfl herr
  | decBlock =>
    obtain ⟨hs, rfl⟩ | ⟨hs, -, k, x, hk, rfl, ⟨-, rfl⟩ | ⟨-, -, rfl⟩ | ⟨hr, hpad, rfl⟩⟩ := execDecBlock_next h
    · exact .inr ⟨hd, hs⟩
    · exact absurd rfl herr
    · exact absurd rfl herr
    · refine ⟨hd, hs, hr, fun K hK p hp => ?_⟩
      cases hk.symm.trans ((latchedKey_iff_cipherKey s K).mp hK)
      cases hpad.symm.trans hp.validPadding_eq
  | abort => obtain rfl := execAbort_next h; exact absurd rfl herr
  | aesEnc =>
    obtain ⟨hraw, -⟩ | ⟨-, hv, rfl⟩ | ⟨-, -, k, -, rfl⟩ := execAesEnc_next h
    · cases hraw.symm.trans hwf
    · exact ⟨hv, _, hd, .inr (.inr (.inl rfl))⟩
    · exact absurd rfl herr
  | aesDec =>
    obtain ⟨hraw, -⟩ | ⟨-, hv, rfl⟩ | ⟨-, -, k, -, rfl⟩ := execAesDec_next h
    · cases hraw.symm.trans hwf
    · exact ⟨hv, _, hd, .inr (.inr (.inr rfl))⟩
    · exact absurd rfl herr

theorem engineMove_failsWith {s t : State} (hb : s.busy = true) (h : engineMove s = .next t) (herr : t.errCode ≠ .ok) :
    s.FailsWith t.errCode := by
  obtain ⟨hidle, -⟩ | ⟨-, i, hd, hx⟩ | ⟨-, he, rfl⟩ := engineMove_next h
  · cases hb.symm.trans hidle
  · exact exec_failsWith hd hx herr
  · exact (decode_error_iff_illegalWord _ _).mp he

/-- The final block of a decryption session with no padding is reported as such, once it is decrypted (R111, R128). -/
theorem execDecBlock_errCode_of_not_paddedBy {s t : State} (h : execDecBlock s = .next t) (hs : s.session = .dec)
    (hr : s.remain.toNat = 16) (hp : ∀ K, s.LatchedKey K → ∀ p, ¬PaddedBy ((aesDecrypt K s.din).xor s.chain) p) :
    t.errCode = .paddingValidationFailure := by
  obtain ⟨hne, -⟩ | ⟨-, -, k, x, hk, rfl, -⟩ := execDecBlock_next h
  · exact absurd hs hne
  · cases (execDecBlock_of_not_paddedBy hs hk hr rfl (hp k ((latchedKey_iff_cipherKey s k).mpr hk))).symm.trans h
    rfl

/-- A completion whose command meets a row of the table reports that row's code. -/
theorem engineMove_errCode_of_failsWith {s t : State} {e : ErrCode} (hb : s.busy = true) (h : engineMove s = .next t)
    (hf : s.FailsWith e) : t.errCode = e := by
  have hexec {i : Instr} (hd : decode s.rawBlockOps s.pendCmd = .ok i) : exec i s = .next t :=
    (engineMove_of_decode_ok hb hd).symm.trans h
  have hcode {u : State} {r : Result} (hu : r = .next (completion e u)) (hr : r = .next t) : t.errCode = e := by
    cases hu.symm.trans hr; rfl
  cases e with
  | ok | entropySourceUnavailable | invalidIVLength | cipherInitializationFailure => exact hf.elim
  | unsupportedKeyLength =>
    obtain ⟨hd, hbits⟩ := hf
    exact hcode (execKeyInit_of_unsupported ((KLen.ofKeyBits_eq_none_iff_toNat _).mpr hbits)) (hexec hd)
  | invalidKeyMaterial =>
    obtain ⟨hv, i, hd, hi⟩ := hf
    obtain ⟨-, -, hwf⟩ := decode_ok hd
    refine hcode (exec_of_no_key hv ?_) (hexec hd)
    obtain rfl | rfl | rfl | rfl := hi
    · exact .inl rfl
    · exact .inr (.inl rfl)
    · exact .inr (.inr ⟨hwf, .inl rfl⟩)
    · exact .inr (.inr ⟨hwf, .inr rfl⟩)
  | invalidCiphertextLength =>
    obtain ⟨hd, hv, hlen⟩ := hf
    exact hcode (execDecStart_of_bad_length hv hlen) (hexec hd)
  | paddingValidationFailure =>
    obtain ⟨hd, hs, hr, hp⟩ := hf
    exact execDecBlock_errCode_of_not_paddedBy (hexec hd) hs hr hp
  | illegalCommand =>
    obtain ⟨r, hr⟩ := decode_error_of_illegalWord hf
    exact hcode (engineMove_of_decode_error hb hr) h
  | sequenceError =>
    obtain ⟨hd, hs⟩ | ⟨hd, hs⟩ := hf
    · exact hcode (execEncBlock_of_no_session hs) (hexec hd)
    · exact hcode (execDecBlock_of_no_session hs) (hexec hd)

/-- A completion has an error's number in ERR_CODE exactly when its command meets that error's row of the table. -/
theorem engineMove_code_iff {s t : State} {e : ErrCode} (hb : s.busy = true) (h : engineMove s = .next t) (he : e ≠ .ok) :
    t.errCode.code = e.code ↔ s.FailsWith e := by
  rw [ErrCode.code_injective.eq_iff]
  refine ⟨?_, engineMove_errCode_of_failsWith hb h⟩
  rintro rfl
  exact engineMove_failsWith hb h he

/-- Settles O33: each code's condition is its row of the table, and R41 (e) bounds them all. -/
theorem eachCodeHasItsCommandAndCondition : Obligations.EachCodeHasItsCommandAndCondition := by
  intro s t hb h
  have row {e : ErrCode} (he : e ≠ .ok) := engineMove_code_iff hb h he
  exact ⟨row (e := .unsupportedKeyLength) nofun, (row (e := .entropySourceUnavailable) nofun).mp,
    row (e := .invalidKeyMaterial) nofun, (row (e := .invalidIVLength) nofun).mp,
    row (e := .invalidCiphertextLength) nofun, (row (e := .cipherInitializationFailure) nofun).mp,
    row (e := .paddingValidationFailure) nofun, row (e := .illegalCommand) nofun, row (e := .sequenceError) nofun,
    Nat.lt_succ_of_le t.codesInRange.2⟩

end Sys2Proof.Machine

/-! # Reset and hazards: operands while a command is pending, results, and the software reset (O18, O19, O26) -/

namespace Sys2Proof.Machine

/-! ### Host accesses while a command is pending (R150) -/

/-- `t` is `s` after host accesses that found a command pending, with the moves `rest` to come: at most the answer and DONE,
ERR_STICKY and WR_IGNORED differ, and no command reads one of these (R64, R149). -/
def AnsweredWhileBusy (s : State) (rest : List Event) (t : State) : Prop :=
  ∃ d e w a, t = { s with done := d, errSticky := e, wrIgnored := w, events := rest, resp := a }

theorem AnsweredWhileBusy.trans {s t u : State} {es rest : List Event} (hst : AnsweredWhileBusy s es t)
    (htu : AnsweredWhileBusy t rest u) : AnsweredWhileBusy s rest u := by
  obtain ⟨_, _, _, _, rfl⟩ := hst
  obtain ⟨d, e, w, a, rfl⟩ := htu
  exact ⟨d, e, w, a, rfl⟩

theorem readWindow_answered (off size : Nat) (s : State) : AnsweredWhileBusy s s.events (readWindow off size s) := by
  obtain ⟨-, e⟩ | ⟨r, -, e⟩ := readWindow_cases off size s <;> exact ⟨_, _, _, _, e⟩

/-- A guarded write is dropped, and the only other register that a host can write is STATUS (R149). -/
theorem writeWindow_answered (off size : Nat) (v : Word) {s : State} (hb : s.busy = true) :
    AnsweredWhileBusy s s.events (writeWindow off size v s) := by
  obtain ⟨-, e⟩ | ⟨r, -, e⟩ := writeWindow_cases off size v s
  · exact ⟨_, _, _, _, e⟩
  · rw [e]
    obtain e | e | e := writeReg_of_busy r v hb <;> rw [e] <;> exact ⟨_, _, _, _, rfl⟩

theorem step_access_answered {s t : State} {e : Event} {rest : List Event} (hb : s.busy = true)
    (he : (∃ addr size, e = .read addr size) ∨ ∃ addr size v, e = .write addr size v) (hs : s.events = e :: rest)
    (h : step s = .next t) : AnsweredWhileBusy s rest t := by
  rw [step_of_cons hs] at h
  have taken : AnsweredWhileBusy s rest { s with events := rest } := ⟨_, _, _, _, rfl⟩
  obtain ⟨addr, size, rfl⟩ | ⟨addr, size, v, rfl⟩ := he
  · obtain ⟨off, -, rfl⟩ := hostRead_next h
    exact taken.trans (readWindow_answered off size _)
  · obtain ⟨off, -, rfl⟩ := hostWrite_next h
    exact taken.trans (writeWindow_answered off size v hb)

/-- Any number of accesses in a row: each leaves the command pending for the next. -/
theorem run_accesses_answered {s t : State} {es rest : List Event} (hb : s.busy = true)
    (hes : ∀ e ∈ es, (∃ addr size, e = .read addr size) ∨ ∃ addr size v, e = .write addr size v)
    (hs : s.events = es ++ rest) (h : Host.Core.run Sys2Proof.core es.length s = .next t) :
    AnsweredWhileBusy s rest t := by
  induction es generalizing s with
  | nil =>
    cases h
    obtain rfl : t.events = rest := hs
    exact ⟨_, _, _, _, rfl⟩
  | cons e es ih =>
    obtain ⟨u, hu, hrun⟩ := run_succ_next h
    obtain ⟨he, hes⟩ := List.forall_mem_cons.mp hes
    have hsu := step_access_answered hb he hs hu
    have hut : AnsweredWhileBusy u rest t := by
      obtain ⟨_, _, _, _, rfl⟩ := hsu
      exact ih hb hes rfl hrun
    exact hsu.trans hut

/-- Settles O18: no operand is among what host accesses can change while BUSY = 1. -/
theorem operandsAreStableWhileBusy : Obligations.OperandsAreStableWhileBusy := by
  intro s t es rest hb hes hs h
  obtain ⟨_, _, _, _, rfl⟩ := run_accesses_answered hb hes hs h
  exact ⟨hb, rfl, rfl, rfl, rfl, rfl, rfl, rfl, rfl, rfl, rfl, rfl, rfl, rfl, rfl⟩

/-! ### What changes a result (R151) -/

/-- The results that a completion leaves for hosts to read: DOUT, OUT_LEN, LAST, ERR_CODE, CHAIN and REMAIN (R32, R37, R38). -/
def State.results (s : State) : Block × BitVec 5 × Bool × ErrCode × Block × Word :=
  (s.dout, s.outLen, s.last, s.errCode, s.chain, s.remain)

theorem State.results_eq_iff (s t : State) : t.results = s.results ↔ t.dout = s.dout ∧ t.outLen = s.outLen ∧
    t.last = s.last ∧ t.errCode = s.errCode ∧ t.chain = s.chain ∧ t.remain = s.remain := by
  simp only [results, Prod.mk.injEq]

theorem readWindow_results (off size : Nat) (s : State) : (readWindow off size s).results = s.results := by
  obtain ⟨-, e⟩ | ⟨r, -, e⟩ := readWindow_cases off size s <;> rw [e] <;> rfl

theorem writeWindow_results (off size : Nat) (v : Word) (s : State) : (writeWindow off size v s).results = s.results := by
  obtain ⟨-, e⟩ | ⟨r, -, e⟩ := writeWindow_cases off size v s
  · rw [e]; rfl
  · obtain ⟨hremain, -, -, hlast, hlen, herr, -, hdout, hchain, -⟩ := writeReg_frame r v s
    rw [e]
    exact (State.results_eq_iff s _).mpr ⟨hdout, hlen, hlast, herr, hchain, hremain⟩

/-- The engine's move changes a result only by completing a pending command (R67). -/
theorem engineMove_results {s t : State} (h : engineMove s = .next t) (hne : t.results ≠ s.results) :
    s.busy = true ∧ t.busy = false ∧ t.done = true := by
  cases hb : s.busy with
  | false => cases (engineMove_of_idle hb).symm.trans h; exact absurd rfl hne
  | true =>
    obtain ⟨hbusy, hdone, -⟩ := (engineMove_completes hb h).1.fields
    exact ⟨rfl, hbusy, hdone⟩

/-- Settles O19: of the moves of a step, the host's accesses leave every result as it was. -/
theorem resultsChangeOnlyAtCompletionOrReset : Obligations.ResultsChangeOnlyAtCompletionOrReset := by
  intro s t hstep hchange
  have hne : t.results ≠ s.results := by
    rw [Ne, State.results_eq_iff]
    tauto
  obtain ⟨hs, hm⟩ | ⟨rest, ⟨hs, hm⟩ | ⟨hs, -⟩ | ⟨addr, size, -, hm⟩ | ⟨addr, size, v, -, hm⟩⟩ := step_next hstep
  · obtain ⟨hb, hbusy, hdone⟩ := engineMove_results hm hne
    exact .inl ⟨hb, hbusy, hdone, .inl hs⟩
  · obtain ⟨hb, hbusy, hdone⟩ := engineMove_results (s := { s with events := rest }) hm hne
    exact .inl ⟨hb, hbusy, hdone, .inr ⟨rest, hs⟩⟩
  · exact .inr ⟨rest, hs⟩
  · obtain ⟨off, -, rfl⟩ := hostRead_next hm
    exact absurd (readWindow_results off size _) hne
  · obtain ⟨off, -, rfl⟩ := hostWrite_next hm
    exact absurd (writeWindow_results off size v _) hne

/-! ### The software reset (R145) -/

/-- A command of every build that a host issues completes in two steps, whatever the last answer was (R66, R67). -/
theorem run_succ_of_commandMoves {s t : State} {i : Instr} {rest : List Event} (n : Nat)
    (hi : ∀ raw, i.wellFormed raw = true) (hb : s.busy = false) (hs : s.events = commandMoves i ++ rest)
    (ht : exec i s = .next t) :
    Host.Core.run Sys2Proof.core (n + 2) s = Host.Core.run Sys2Proof.core n (t.onBus (encode i) rest) := by
  have hx : exec i (s.issuedOnBus (encode i) rest) = .next (t.onBus (encode i) rest) := by
    rw [exec_issuedOnBus, ht]; rfl
  exact (run_succ_of_issue (n + 1) hb hs).trans
    (run_succ_of_next n ((step_of_encode_pending rfl rfl (hi _) rfl).trans hx))

/-- A write of CONFIG while no command is pending, as the first step of a run (R25, R53). -/
theorem run_succ_of_write_config {s : State} {v : Word} {rest : List Event} (n : Nat) (hb : s.busy = false)
    (h : s.events = .write (Config.base + 0x08) 4 v :: rest) :
    Host.Core.run Sys2Proof.core (n + 1) s = Host.Core.run Sys2Proof.core n
      { writeConfig v s with events := rest, resp := .written } := by
  rw [run_succ_of_writeReg n (r := .config) rfl h, writeReg_config_of_idle _ hb]

/-- Ones written to all the W1C bits of STATUS clear them (R27, R53). -/
theorem writeStatus_all (s : State) :
    writeStatus 0xC2 s = { s with done := false, errSticky := false, wrIgnored := false } := by
  simp [writeStatus]

/-- The write of STATUS that clears its W1C bits, as the first step of a run (R27, R53). -/
theorem run_succ_of_clear_status {s : State} {rest : List Event} (n : Nat)
    (h : s.events = .write (Config.base + 0x10) 4 0xC2 :: rest) :
    Host.Core.run Sys2Proof.core (n + 1) s = Host.Core.run Sys2Proof.core n
      { s with done := false, errSticky := false, wrIgnored := false, events := rest, resp := .written } := by
  have hw : writeReg .status 0xC2 s = writeStatus 0xC2 s := rfl
  rw [run_succ_of_writeReg n (r := .status) rfl h, hw, writeStatus_all]

/-- Settles O26: the two commands clear the key, the session and the data path, and the writes the rest of the state. -/
theorem softwareResetReachesTheResetState : Obligations.SoftwareResetReachesTheResetState := by
  intro s rest hb hs
  simp only [List.append_assoc] at hs
  calc Host.Core.run Sys2Proof.core 16 s
    _ = _ := run_succ_of_commandMoves 14 (i := .keyClear) (fun _ => rfl) hb hs rfl
    _ = _ := run_succ_of_commandMoves 12 (i := .abort) (fun _ => rfl) rfl rfl rfl
    _ = _ := run_succ_of_write_config 11 rfl rfl
    _ = _ := run_succ_of_write_config 10 rfl rfl
    _ = _ := run_succ_of_write_msgLen 9 rfl rfl
    _ = _ := run_setIvMoves 5 rfl rfl
    _ = _ := run_setDinMoves 1 rfl rfl
    _ = _ := run_succ_of_clear_status 0 rfl
    _ = _ := rfl

end Sys2Proof.Machine
